-- ==== Sys2Proof/Word.lean ====
section
/-! DEFINITION. The words, names and plainest arithmetic that commands and state share. A moment of part time is a Nat,
in microseconds: the spec's milliseconds with their fraction (R199, log 3). -/

namespace Sys2Proof

/-- One byte of a notice frame or of the configuration memory. -/
abbrev Byte := BitVec 8

/-- A value of the delivery count D, 32 bits; every difference is taken modulo 2^32 (R41). -/
abbrev DCount := BitVec 32

/-- The two sides of the frame (00_scope.md, Terms). -/
inductive Side
  | A
  | B
deriving DecidableEq, Repr

/-- The buttons whose release BUTTON_RELEASE reports (R204). -/
inductive Button
  | stop
  | doffDone
  | clearA
  | clearB
deriving DecidableEq, Repr

/-- The blocks that take notices from the inbound queue (R176, R178). -/
inductive Block
  | spindleTable
  | dispatcher
  | frameDoff
  | roving
  | tally
deriving DecidableEq, Repr

/-- The eight frame modes (05_frame_modes_and_doffing.md, The frame mode). -/
inductive FrameMode
  | halted
  | running
  | restart
  | fullStop
  | fullWait
  | doffing
  | doffStall
  | stopped
deriving DecidableEq, Repr

/-- A saturating count: it stops at its field maximum (00_scope.md, Arithmetic). -/
def saturate (top n : Nat) : Nat := min top n

/-- Division rounded toward plus infinity (00_scope.md, Arithmetic). -/
def ceilDiv (a b : Nat) : Nat := (a + b - 1) / b

end Sys2Proof
end

