-- ==== Sys2Proof/Syntax.lean ====
section
/-! DEFINITION. The commands of the GX412: one constructor for each row of spec/opcode_table.json.
The first operand `t` of a command is the moment of part time at which it takes place (log 1). -/

namespace Sys2Proof

/-- The commands, in the order of spec/opcode_table.json. -/
inductive Instr
  /-- POWER_ON (R195): supply is applied with the strap pins at `strap`. -/
  | powerOn (strap : Nat)
  /-- RESET_ASSERT (R196). -/
  | resetAssert (t : Nat)
  /-- RESET_RELEASE (R196): the reset pin is released with the strap pins at `strap`. -/
  | resetRelease (strap : Nat)
  /-- CONFIGURATION_READ_END (R191): `image` is the 128 bytes the configuration port presented. -/
  | configurationReadEnd (t : Nat) (image : List Byte)
  /-- BECOMING_ACTIVE (R197). -/
  | becomingActive (t : Nat)
  /-- FRAME_MINUTE (R199). -/
  | frameMinute (t : Nat)
  /-- SCAN_TIMER_EXPIRY (R5) of one side. -/
  | scanTimerExpiry (t : Nat) (side : Side)
  /-- MODULE_FRAME_RECEIVED (R8): nine bits, the yarn bit of position 1 first (bit 8) and the check bit last (bit 0). -/
  | moduleFrameReceived (t : Nat) (bits : BitVec 9)
  /-- SENSE_PASS_END (R9): the 12 bits at the trailer position, first bit first (bit 11). -/
  | sensePassEnd (t : Nat) (trailer : BitVec 12)
  /-- DRIVE_PASS_END (R4). -/
  | drivePassEnd (t : Nat)
  /-- SIDE_CLEAR_PRESS (R31). -/
  | sideClearPress (t : Nat) (side : Side)
  /-- UNLOCK (R31): the notice names `spindle`, or 0 for all. -/
  | unlock (t : Nat) (spindle : Nat)
  /-- FRONT_ROLLER_PULSE (R41). -/
  | frontRollerPulse (t : Nat)
  /-- ROLLER_STOPS_TURNING (R42). -/
  | rollerStopsTurning (t : Nat)
  /-- UPDATE_TICK (R43). -/
  | updateTick (t : Nat)
  /-- PWM_PERIOD_START (R58). -/
  | pwmPeriodStart (t : Nat)
  /-- CALL_REPEAT (R69) of the call of that number. -/
  | callRepeat (t : Nat) (call : Nat)
  /-- WITHDRAWN_UNTAKEN (R69) of the call of that number. -/
  | withdrawnUntaken (t : Nat) (call : Nat)
  /-- TAKE (R71) from station `src`. -/
  | take (t : Nat) (src call spindle : Nat)
  /-- DONE (R73) from station `src`; `result` and `reason` are the payload codes of R202. -/
  | done (t : Nat) (src call spindle result reason : Nat)
  /-- PIECING_TIMEOUT (R79) of the call of that number. -/
  | piecingTimeout (t : Nat) (call : Nat)
  /-- VERIFY_WINDOW_CLOSES (R80) of the call of that number. -/
  | verifyWindowCloses (t : Nat) (call : Nat)
  /-- RUN_PERMIT_RISE (R93). -/
  | runPermitRise (t : Nat)
  /-- RUN_PERMIT_FALL (R94). -/
  | runPermitFall (t : Nat)
  /-- STOP_BUTTON (R94). -/
  | stopButton (t : Nat)
  /-- DRIVE_FAULT (R94). -/
  | driveFault (t : Nat)
  /-- AT_DOFF_POSITION (R96). -/
  | atDoffPosition (t : Nat)
  /-- DOFF_DONE_BUTTON (R99). -/
  | doffDoneButton (t : Nat)
  /-- RESTART_GRACE (R94). -/
  | restartGrace (t : Nat)
  /-- POSITION_TIMEOUT (R96). -/
  | positionTimeout (t : Nat)
  /-- DOFFING_TIMEOUT (R99). -/
  | doffingTimeout (t : Nat)
  /-- DOFF_START (R98) from station `src`. -/
  | doffStart (t : Nat) (src : Nat)
  /-- DOFF_END (R99) from station `src`. -/
  | doffEnd (t : Nat) (src : Nat)
  /-- DOFF_ABORT (R99) from station `src`. -/
  | doffAbort (t : Nat) (src : Nat)
  /-- DOFF_QUEUED (R110) from station `src`. -/
  | doffQueued (t : Nat) (src position : Nat)
  /-- DOFF_GRANT (R110) from station `src`. -/
  | doffGrant (t : Nat) (src eta : Nat)
  /-- FORECAST_INTERVAL (R103). -/
  | forecastInterval (t : Nat)
  /-- CLAIM_ANSWER_WAIT (R109). -/
  | claimAnswerWait (t : Nat)
  /-- CLAIM_PAUSE (R108). -/
  | claimPause (t : Nat)
  /-- BATCH_TIMER (R123). -/
  | batchTimer (t : Nat)
  /-- ROVING_ANSWER_WAIT (R125). -/
  | rovingAnswerWait (t : Nat)
  /-- ROVING_ACK (R126) from station `src`. -/
  | rovingAck (t : Nat) (src eta : Nat) (sections : List Nat)
  /-- ETA_EXPIRY (R127). -/
  | etaExpiry (t : Nat)
  /-- ROVING_DEFER (R128) from station `src`. -/
  | rovingDefer (t : Nat) (src minutes : Nat) (sections : List Nat)
  /-- DEFERRAL_END (R128). -/
  | deferralEnd (t : Nat)
  /-- ROVING_LAID (R136) from station `src`. -/
  | rovingLaid (t : Nat) (src creel metres : Nat)
  /-- SHIFT_CHANGE (R149) from station `src`. -/
  | shiftChange (t : Nat) (src closing opening stamp : Nat)
  /-- TALLY_QUERY (R156) from station `src`. -/
  | tallyQuery (t : Nat) (src number : Nat)
  /-- BLOCK_BUSY_ENDS (R178) for one block. -/
  | blockBusyEnds (t : Nat) (block : Block)
  /-- RECEIVE_FRAME_END (R174): the whole bytes collected, destination first. -/
  | receiveFrameEnd (t : Nat) (bytes : List Byte)
  /-- HOLD (R181) accepted from station `src`. -/
  | hold (t : Nat) (src time : Nat)
  /-- HELLO (R185) accepted from station `src`; `kind` is the code of R202. -/
  | hello (t : Nat) (src kind group : Nat) (fresh : Bool)
  /-- PATROL (R183) accepted from station `src`. -/
  | patrol (t : Nat) (src : Nat) (stations : List Nat)
  /-- FORECAST (R183) accepted from station `src`; `mode` is the code of R202. -/
  | forecast (t : Nat) (src group mode minutes fill : Nat)
  /-- OWN_HOLD_EXPIRY (R179). -/
  | ownHoldExpiry (t : Nat)
  /-- PEER_HOLD_EXPIRY (R181) of the peer `station`. -/
  | peerHoldExpiry (t : Nat) (station : Nat)
  /-- FIRST_ATTEMPT (R170). -/
  | firstAttempt (t : Nat)
  /-- COLLISION (R171). -/
  | collision (t : Nat)
  /-- JAM_END (R172). -/
  | jamEnd (t : Nat)
  /-- RETRY_ATTEMPT (R172). -/
  | retryAttempt (t : Nat)
  /-- NOTICE_SENT (R173). -/
  | noticeSent (t : Nat)
  /-- ISOLATION_TIMEOUT (R186). -/
  | isolationTimeout (t : Nat)
  /-- SUPPLY_LOST (R195). -/
  | supplyLost
  /-- DRIVE_FAULT_CLEARS (R90). -/
  | driveFaultClears (t : Nat)
  /-- AT_DOFF_POSITION_CLEARS (R90). -/
  | atDoffPositionClears (t : Nat)
  /-- BUTTON_RELEASE (R204). -/
  | buttonRelease (t : Nat) (button : Button)
  /-- START_MARK (R166): `alternation` bits of alternation stood before the two ones. -/
  | startMark (t : Nat) (alternation : Nat)
deriving DecidableEq, Repr

end Sys2Proof
end

