-- ==== Sys2Proof/WellFormed.lean ====
section
/-! DEFINITION. Which commands the outside world can send: each operand within the field that carries it
(09_configuration_and_start.md, 10_formats_pins_and_ratings.md). `exec` is total and does not need the check. -/

namespace Sys2Proof

/-- One byte of a notice (R200). -/
def isByte (n : Nat) : Bool := n < 256

/-- A two-byte field of a notice (R200). -/
def isWord (n : Nat) : Bool := n < 65536

/-- A station that can be the source of a notice to this part (R175). -/
def isStation (n : Nat) : Bool := 1 ≤ n && n ≤ 239

/-- Each operand fits the field that carries it. -/
def Instr.wellFormed : Instr → Bool
  | .powerOn strap => isByte strap
  | .resetAssert _ => true
  | .resetRelease strap => isByte strap
  | .configurationReadEnd _ image => image.length == 128
  | .becomingActive _ => true
  | .frameMinute _ => true
  | .scanTimerExpiry _ _ => true
  | .moduleFrameReceived _ _ => true
  | .sensePassEnd _ _ => true
  | .drivePassEnd _ => true
  | .sideClearPress _ _ => true
  | .unlock _ spindle => isWord spindle
  | .frontRollerPulse _ => true
  | .rollerStopsTurning _ => true
  | .updateTick _ => true
  | .pwmPeriodStart _ => true
  | .callRepeat _ call => isWord call
  | .withdrawnUntaken _ call => isWord call
  | .take _ src call spindle => isStation src && isWord call && isWord spindle
  | .done _ src call spindle result reason =>
      isStation src && isWord call && isWord spindle && isByte result && isByte reason
  | .piecingTimeout _ call => isWord call
  | .verifyWindowCloses _ call => isWord call
  | .runPermitRise _ => true
  | .runPermitFall _ => true
  | .stopButton _ => true
  | .driveFault _ => true
  | .atDoffPosition _ => true
  | .doffDoneButton _ => true
  | .restartGrace _ => true
  | .positionTimeout _ => true
  | .doffingTimeout _ => true
  | .doffStart _ src => isStation src
  | .doffEnd _ src => isStation src
  | .doffAbort _ src => isStation src
  | .doffQueued _ src position => isStation src && isByte position
  | .doffGrant _ src eta => isStation src && isByte eta
  | .forecastInterval _ => true
  | .claimAnswerWait _ => true
  | .claimPause _ => true
  | .batchTimer _ => true
  | .rovingAnswerWait _ => true
  | .rovingAck _ src eta sections =>
      isStation src && isByte eta && sections.length ≤ 31 && sections.all isByte
  | .etaExpiry _ => true
  | .rovingDefer _ src minutes sections =>
      isStation src && isByte minutes && sections.length ≤ 31 && sections.all isByte
  | .deferralEnd _ => true
  | .rovingLaid _ src creel metres => isStation src && isByte creel && isWord metres
  | .shiftChange _ src closing opening stamp =>
      isStation src && isWord closing && isWord opening && stamp < 2 ^ 32
  | .tallyQuery _ src number => isStation src && isWord number
  | .blockBusyEnds _ _ => true
  | .receiveFrameEnd _ _ => true
  | .hold _ src time => isStation src && isByte time
  | .hello _ src kind group _ => isStation src && isByte kind && isByte group
  | .patrol _ src stations => isStation src && stations.length ≤ 32 && stations.all isByte
  | .forecast _ src group mode minutes fill =>
      isStation src && isByte group && isByte mode && isWord minutes && isWord fill
  | .ownHoldExpiry _ => true
  | .peerHoldExpiry _ station => isStation station
  | .firstAttempt _ => true
  | .collision _ => true
  | .jamEnd _ => true
  | .retryAttempt _ => true
  | .noticeSent _ => true
  | .isolationTimeout _ => true
  | .supplyLost => true
  | .driveFaultClears _ => true
  | .atDoffPositionClears _ => true
  | .buttonRelease _ _ => true
  | .startMark _ _ => true

end Sys2Proof
end

