-- ==== Sys2Proof/Decode.lean ====
section
/-! DEFINITION. The command a word of spec/opcode_table.json spells. No row of the table gives any bits, so no
word spells a command. -/

namespace Sys2Proof

/-- No row of the opcode table gives bits: there is nothing to decode. -/
def decodeTableWord (_nbits _w : Nat) : Option Instr := none

end Sys2Proof
end

