-- ==== Sys2Proof/Config.lean ====
section
/-! DEFINITION. What the GX412 fixes, whatever its configuration memory holds, and the model's free values. -/

namespace Sys2Proof

/-- FREE VALUE (log 7): the rank of a live call among calls with the same opened-at, at the n-th use.
R63 takes several live calls "in order of opened-at, oldest first" and gives no order between equals. -/
opaque Config.freeCallRank : Nat → Nat → Nat

/-- FREE VALUE (log 35): the first of the 32 alternating bits of the jam that ends at a moment; R171 does not state which
it is. -/
opaque Config.freeJamBit : Nat → Bool

/-- FREE VALUE (log 35): the level of the configuration port's data output in each clock period of the read that began at
a moment; R191 states none. -/
opaque Config.freePortBit : Nat → Nat → Bool

/-- The 10 ms for which a new level of an input must have stood (R204). -/
def Config.filterTime : Nat := 10000

/-- A block other than the tally unit is busy with a handed notice for less than 1 ms (R178). -/
def Config.busyTime : Nat := 1000

/-- The tally unit is busy with a handed notice for at most 30 ms (R178). -/
def Config.tallyBusyTime : Nat := 30000

/-- The configuration read: 1,056 clock periods at 100 kHz, in microseconds (R191). -/
def Config.readTime : Nat := 10560

/-- The listening period of 2 s (R195). -/
def Config.listenTime : Nat := 2000000

/-- The update tick of 10 s (R43). -/
def Config.tickTime : Nat := 10000000

/-- The wait of 500 ms without a pulse after which the roller stops turning (R42). -/
def Config.rollerWait : Nat := 500000

/-- The least time between two rising edges of FR_PULSE: 20 µs high and 20 µs low (R204). -/
def Config.pulseSpacing : Nat := 40

/-- The PWM period of 1 ms (R58). -/
def Config.pwmPeriod : Nat := 1000

/-- The isolation timer of 60 s (R186). -/
def Config.isolationTime : Nat := 60000000

/-- The claim's answer wait of 10 s (R108). -/
def Config.claimWait : Nat := 10000000

/-- The claim pause of 60 s, in milliseconds (R109). -/
def Config.claimPauseMs : Nat := 60000

/-- The roving answer wait of 30 s, in milliseconds (R123). -/
def Config.rovingWaitMs : Nat := 30000

/-- The greatest age of last heard for a serving carriage, 30 s, in milliseconds (R65). -/
def Config.servingMs : Nat := 30000

/-- The time of HOLD(255), 255 × 4 ms (R179). -/
def Config.ownHoldMs : Nat := 1020

/-- The window of the cluster check, in seconds (R131). -/
def Config.clusterWindow : Nat := 120

/-- Slots of the call table (R63). -/
def Config.callSlots : Nat := 8

/-- Places of an outbound queue (R167). -/
def Config.outboundSlots : Nat := 12

/-- Slots of the inbound queue (R177). -/
def Config.inboundSlots : Nat := 16

/-- The last free inbound slots, kept for urgent notices (R177). -/
def Config.routineFloor : Nat := 2

/-- Entries of the peer table (R182). -/
def Config.peerSlots : Nat := 32

/-- Attempts a notice is given (R173). -/
def Config.maxAttempts : Nat := 16

/-- Sections a ROVING-ASK lists at most (R123). -/
def Config.askSections : Nat := 12

/-- Closed records the ring holds (R151). -/
def Config.ringSlots : Nat := 4

end Sys2Proof
end

