-- ==== Sys2Proof/Machine/State.lean ====
section
/-! DEFINITION. The state of the GX412 as plain data, block by block (00_scope.md, Block diagram), and the state
right after reset. A field named `…Due`, `…Since` or `…Start` is a moment in microseconds; the moments that the
records of R63, R108, R118, R179 and R182 name are held in whole milliseconds (R199, log 3). -/

namespace Sys2Proof.Machine

/-! ## Notices -/

/-- The kinds of the kind table (R201). -/
inductive Kind
  | hello
  | patrol
  | forecast
  | hold
  | call
  | cancel
  | take
  | assign
  | done
  | close
  | doffClaim
  | doffQueued
  | doffGrant
  | doffStart
  | doffEnd
  | doffAbort
  | doffRefuse
  | rovingAsk
  | rovingAck
  | rovingDefer
  | rovingLaid
  | shiftChange
  | unlock
  | tallyQuery
  | tally
  | tallyNone
deriving DecidableEq, Repr

/-- A notice (R200): `kind` is absent for a kind byte outside the kind table; `fresh` is bit 0 of the flags. -/
structure Notice where
  dst : Nat
  src : Nat
  kind : Option Kind
  fresh : Bool
  reference : Nat
  payload : List Byte
deriving DecidableEq, Repr

/-! ## Start and configuration -/

/-- Where the part stands in its start (R194 to R197). -/
inductive Phase
  | off
  | inReset
  | reading
  | listening
  | active
  | configFault
deriving DecidableEq, Repr

/-- A point of the build profile (R51). -/
structure ProfilePoint where
  fill : Nat
  speed : Nat
deriving DecidableEq, Repr

/-- The clamped configuration of a start (R192, R193, R203), in the units of the configuration memory. -/
structure Settings where
  sectionsA : Nat
  sectionsB : Nat
  chainClock : Nat
  lineRate : Nat
  dofferGroup : Nat
  dofferStation : Nat
  railStation : Nat
  scanInterval : Nat
  kDown : Nat
  kUp : Nat
  detectDelay : Nat
  pulses : Nat
  circumference : Nat
  draft : Nat
  tex : Nat
  copLength : Nat
  profile : List ProfilePoint
  sMin : Nat
  sMax : Nat
  sFull : Nat
  rampStep : Nat
  maxTrim : Nat
  openCallLimit : Nat
  settleTime : Nat
  repeatInterval : Nat
  piecingTimeout : Nat
  verifyWindow : Nat
  recallDelay : Nat
  maxAttempts : Nat
  restartGrace : Nat
  positionTimeout : Nat
  doffingTimeout : Nat
  forecastInterval : Nat
  slotWidth : Nat
  claimFill : Nat
  dofferLead : Nat
  railLead : Nat
  lookahead : Nat
  batchDelay : Nat
  clusterCount : Nat
  laidMetres : Nat
  rogueThreshold : Nat
  holdThreshold : Nat
deriving DecidableEq, Repr

/-- DESIGN CHOICE (log 18): the settings before any good configuration, every field 0. -/
def Settings.unread : Settings :=
  { sectionsA := 0, sectionsB := 0, chainClock := 0, lineRate := 0, dofferGroup := 0, dofferStation := 0,
    railStation := 0, scanInterval := 0, kDown := 0, kUp := 0, detectDelay := 0, pulses := 0, circumference := 0,
    draft := 0, tex := 0, copLength := 0, profile := [], sMin := 0, sMax := 0, sFull := 0, rampStep := 0,
    maxTrim := 0, openCallLimit := 0, settleTime := 0, repeatInterval := 0, piecingTimeout := 0,
    verifyWindow := 0, recallDelay := 0, maxAttempts := 0, restartGrace := 0, positionTimeout := 0,
    doffingTimeout := 0, forecastInterval := 0, slotWidth := 0, claimFill := 0, dofferLead := 0, railLead := 0,
    lookahead := 0, batchDelay := 0, clusterCount := 0, laidMetres := 0, rogueThreshold := 0,
    holdThreshold := 0 }

/-- The start and configuration block (R190 to R198). -/
structure StartUnit where
  phase : Phase
  phaseStart : Nat
  fresh : Bool
  strap : Nat
  image : List Byte
  settings : Settings
  keptA : Nat
  keptB : Nat
deriving DecidableEq, Repr

/-- The seven inputs that the part takes by its 10 ms filter (R204). -/
inductive Input
  | runPermit
  | driveFault
  | atDoff
  | stop
  | doffDone
  | clearA
  | clearB
deriving DecidableEq, Repr

/-- For each input the moment at which its last change was taken, after 10 ms of the new level (R204, log 36). -/
structure PinChanges where
  runPermit : Option Nat
  driveFault : Option Nat
  atDoff : Option Nat
  stop : Option Nat
  doffDone : Option Nat
  clearA : Option Nat
  clearB : Option Nat
deriving DecidableEq, Repr

/-- No change of an input has been taken since the filter began its work. -/
def PinChanges.none : PinChanges :=
  ⟨Option.none, Option.none, Option.none, Option.none, Option.none, Option.none, Option.none⟩

/-- The levels of the local inputs that last stood 10 ms (R90, R204); a button is `true` while pressed. `reset` is
RESET_N, taken at its level with no filter and `true` while asserted (R196, R204). -/
structure Pins where
  reset : Bool
  runPermit : Bool
  driveFault : Bool
  atDoff : Bool
  stop : Bool
  doffDone : Bool
  clearA : Bool
  clearB : Bool
  changes : PinChanges
deriving DecidableEq, Repr

/-- DESIGN CHOICE (log 5): levels low, the reset pin released; the buttons released as R204 says of open inputs. -/
def Pins.idle : Pins :=
  { reset := false, runPermit := false, driveFault := false, atDoff := false, stop := false, doffDone := false,
    clearA := false, clearB := false, changes := PinChanges.none }

/-- RESET_N at a level (R204). -/
def Pins.atReset (p : Pins) (asserted : Bool) : Pins := { p with reset := asserted }

/-- The levels as they stand outside, the filter begun afresh (R196, R204). -/
def Pins.refiltered (p : Pins) : Pins := { p with changes := PinChanges.none }

/-! ## Chain engine -/

/-- Direction of a pass (R2). -/
inductive PassKind
  | sense
  | drive
deriving DecidableEq, Repr

/-- A pass of one chain (R5, R6). -/
structure Pass where
  side : Side
  kind : PassKind
deriving DecidableEq, Repr

/-- The suspect count, recovery count and blindness of one module (R10 to R12). -/
structure ModuleRec where
  suspect : Nat
  recovery : Nat
  blind : Bool
deriving DecidableEq, Repr

/-- R20: a module after either start. -/
def ModuleRec.fresh : ModuleRec := ⟨0, 0, false⟩

/-- The pending readings of one module frame with its mark (R8), position 1 first. -/
structure PendingFrame where
  yarn : List Bool
  passing : Bool
deriving DecidableEq, Repr

/-- The lamp and clamp bit of one spindle (R4, R18). -/
structure DriveBits where
  lamp : Bool
  clamp : Bool
deriving DecidableEq, Repr

/-- The pass in flight: the module frames received so far in a sense pass, the drive bits formed in a drive pass. -/
structure PassFlight where
  pass : Pass
  since : Nat
  frames : List PendingFrame
  bits : List DriveBits
deriving DecidableEq, Repr

/-- The chain engine's record of one side; `outputs` is what the side's modules hold outside (R4); `loadedAt` and
`latchedAt` are the moments of the last pulses of the side's sense load and drive latch outputs (R3, R4, log 24). -/
structure SideChain where
  scanDue : Option Nat
  modules : List ModuleRec
  trailerMissing : Nat
  loadedAt : Option Nat
  latchedAt : Option Nat
  outputs : List DriveBits
deriving DecidableEq, Repr

/-- The chain engine (R1 to R21). -/
structure ChainUnit where
  sideA : SideChain
  sideB : SideChain
  queue : List Pass
  flight : Option PassFlight
  lastServed : Side
  readings : List Bool
  rollerBegan : Option Nat
deriving DecidableEq, Repr

/-- R20: a side with `n` modules after either start, its modules still holding `outputs`. -/
def SideChain.fresh (n : Nat) (outputs : List DriveBits) : SideChain :=
  { scanDue := none, modules := List.replicate n ModuleRec.fresh, trailerMissing := 0, loadedAt := none,
    latchedAt := none, outputs := outputs }

/-- R20: the chain engine after either start, for `a` and `b` modules. -/
def ChainUnit.fresh (a b : Nat) (outA outB : List DriveBits) : ChainUnit :=
  { sideA := SideChain.fresh a outA, sideB := SideChain.fresh b outB, queue := [], flight := none,
    lastServed := .B, readings := List.replicate (8 * (a + b)) false, rollerBegan := none }

/-! ## Spindle table -/

/-- The spindle states (R22). -/
inductive SpindleState
  | up
  | down
  | called
  | taken
  | runOut
  | locked
  | held
deriving DecidableEq, Repr

/-- The spindle record (R22). -/
structure SpindleRec where
  state : SpindleState
  run : Nat
  attempts : Nat
  breaks : Nat
  upMark : DCount
  length : Nat
  downSince : Nat
  notBefore : Option Nat
  call : Option Nat
  heldFrom : Option SpindleState
  heldMark : Option DCount
deriving DecidableEq, Repr

/-- R39: a spindle record after a cold start, with its up-mark. -/
def SpindleRec.fresh (d : DCount) : SpindleRec :=
  { state := .up, run := 0, attempts := 0, breaks := 0, upMark := d, length := 0, downSince := 0,
    notBefore := none, call := none, heldFrom := none, heldMark := none }

/-- The spindle table (R22, R23, R37): record `k` of `recs` (from 0) is spindle `k + 1`. -/
structure SpindleTable where
  recs : List SpindleRec
  breakList : List Nat
  heldA : Nat
  heldB : Nat
deriving DecidableEq, Repr

/-! ## Piecing dispatcher -/

/-- The states OPEN, TAKEN and VERIFY of a live call (R63). -/
inductive CallState
  | opened
  | taken
  | verify
deriving DecidableEq, Repr

/-- A live call (R63); moments in milliseconds. -/
structure Call where
  number : Nat
  spindle : Nat
  state : CallState
  carriage : Option Nat
  openedAt : Nat
  repeats : Nat
  takenAt : Option Nat
  verifyUntil : Option Nat
deriving DecidableEq, Repr

/-- The piecing dispatcher (R63, R64, R80). -/
structure Dispatcher where
  calls : List Call
  serial : Nat
  verifyInUse : Nat
deriving DecidableEq, Repr

/-! ## Delivery and drive unit -/

/-- The delivery and drive unit (R41 to R62); `buckets` holds the n filled rate buckets, oldest first (R44), `trimGiven` the
trim that the frame and doff unit handed over at the previous tick, 0 after a start or a doff (R49). -/
structure DriveUnit where
  remainder : Nat
  d : DCount
  copMark : DCount
  tickMark : DCount
  buckets : List Nat
  eligible : Bool
  rate : Option Nat
  turning : Bool
  lastPulse : Nat
  fullLatch : Bool
  fill : Nat
  measured : Nat
  natural : Nat
  trimGiven : Nat
  speed : Nat
  dutyWaiting : Nat
  dutyRunning : Nat
  pwmNext : Nat
  tickDue : Option Nat
deriving DecidableEq, Repr

/-- R61: the unit after a cold start, with the reference `speed`; the PWM periods run from `pwm` on (log 15). -/
def DriveUnit.fresh (speed : Nat) (pwm : Nat) : DriveUnit :=
  { remainder := 0, d := 0, copMark := 0, tickMark := 0, buckets := [], eligible := false, rate := none,
    turning := false, lastPulse := 0, fullLatch := false, fill := 0, measured := 999, natural := 999,
    trimGiven := 0, speed := speed, dutyWaiting := 0, dutyRunning := 0, pwmNext := pwm, tickDue := none }

/-! ## Frame and doff unit -/

/-- The reasons STOPPED carries. -/
inductive StopReason
  | operator
  | drive
  | position
deriving DecidableEq, Repr

/-- The states of the claim record (R108). -/
inductive ClaimState
  | none
  | claimed
  | queued
  | granted
deriving DecidableEq, Repr

/-- The last answer of the present claim (R108). -/
inductive ClaimAnswer
  | none
  | position (n : Nat)
  | eta (n : Nat)
deriving DecidableEq, Repr

/-- The claim record (R108); `pause` is a moment in milliseconds. -/
structure Claim where
  state : ClaimState
  position : Option Nat
  eta : Option Nat
  lastAnswer : ClaimAnswer
  retries : Nat
  answerDue : Option Nat
  pause : Option Nat
deriving DecidableEq, Repr

/-- R111, R115: the record NONE. -/
def Claim.idle : Claim :=
  { state := .none, position := none, eta := none, lastAnswer := .none, retries := 0, answerDue := none,
    pause := none }

/-- The frame and doff unit (R90 to R117). -/
structure FrameUnit where
  mode : FrameMode
  reason : Option StopReason
  permitDropped : Bool
  fullAt : Option Nat
  doffStartAt : Option Nat
  graceDue : Option Nat
  positionDue : Option Nat
  doffingDue : Option Nat
  claim : Claim
  trim : Nat
  forecastDue : Option Nat
  lastForecast : Option Nat
deriving DecidableEq, Repr

/-- R115: the unit after a cold start. -/
def FrameUnit.fresh : FrameUnit :=
  { mode := .halted, reason := none, permitDropped := false, fullAt := none, doffStartAt := none,
    graceDue := none, positionDue := none, doffingDue := none, claim := Claim.idle, trim := 0,
    forecastDue := none, lastForecast := none }

/-! ## Roving unit -/

/-- The supply states (R118). -/
inductive SupplyState
  | none
  | due
  | asked
  | acked
  | deferred
  | runOut
deriving DecidableEq, Repr

/-- An eta in minutes with the moment it was received, in milliseconds (R118). -/
structure Eta where
  minutes : Nat
  received : Nat
deriving DecidableEq, Repr

/-- The supply record of one creel section (R118); `retryAt` in milliseconds. -/
structure SupplyRec where
  creel : Nat
  state : SupplyState
  laidMark : DCount
  laidLength : Nat
  remaining : Nat
  time : Option Nat
  asks : Nat
  retryAt : Option Nat
  eta : Option Eta
  breaks : List Nat
deriving DecidableEq, Repr

/-- R138: a supply record after a cold start, with its laid-mark and its laid length in dm. -/
def SupplyRec.fresh (creel : Nat) (d : DCount) (laid : Nat) : SupplyRec :=
  { creel := creel, state := .none, laidMark := d, laidLength := laid, remaining := laid, time := none,
    asks := 0, retryAt := none, eta := none, breaks := [] }

/-- The roving unit (R118); `batchDue` in milliseconds. -/
structure RovingUnit where
  recs : List SupplyRec
  batchDue : Option Nat
  askSeq : Nat
deriving DecidableEq, Repr

/-! ## Tally unit -/

/-- The counts of the frame part of a shift record (R141). -/
structure FrameCounts where
  doffs : Nat
  dofferWait : Nat
  doffStall : Nat
  stopped : Nat
  runOutMinutes : Nat
  blindMinutes : Nat
  dofferSilent : Nat
  railSilent : Nat
  collisions : Nat
  sendFailures : Nat
  receiveErrors : Nat
  inboundOverruns : Nat
  routineDiscards : Nat
  lateScans : Nat
deriving DecidableEq, Repr

/-- R152: every count of the frame part 0. -/
def FrameCounts.zero : FrameCounts := ⟨0, 0, 0, 0, 0, 0, 0, 0, 0, 0, 0, 0, 0, 0⟩

/-- The counts of one side (R142). -/
structure SideCounts where
  endsDown : Nat
  startUpBreaks : Nat
  pieced : Nat
  piecedByHand : Nat
  failed : Nat
  lapsed : Nat
  untaken : Nat
  locked : Nat
deriving DecidableEq, Repr

/-- R152: every count of a side 0. -/
def SideCounts.zero : SideCounts := ⟨0, 0, 0, 0, 0, 0, 0, 0⟩

/-- The open shift record (R141, R142); `openedAt` is a frame minute. -/
structure OpenShift where
  number : Nat
  openedAt : Nat
  stamp : Option Nat
  dOpen : DCount
  counts : FrameCounts
  sideA : SideCounts
  sideB : SideCounts
deriving DecidableEq, Repr

/-- R162: the record a cold start opens. -/
def OpenShift.first : OpenShift :=
  { number := 1, openedAt := 0, stamp := none, dOpen := 0, counts := FrameCounts.zero,
    sideA := SideCounts.zero, sideB := SideCounts.zero }

/-- An entry of the rogue list (R147). -/
structure Rogue where
  spindle : Nat
  breaks : Nat
deriving DecidableEq, Repr

/-- The values of a side formed at a close or a query (R144 to R148); `configured` says that the side had sections then
(R159). -/
structure SideValues where
  configured : Bool
  delivered : Nat
  efficiency : Nat
  mass : Nat
  rogues : List Rogue
  lockedNow : Nat
deriving DecidableEq, Repr

/-- A closed shift record (R155). -/
structure ClosedShift where
  shift : OpenShift
  closedAt : Nat
  valuesA : SideValues
  valuesB : SideValues
deriving DecidableEq, Repr

/-- The tally unit (R141, R151): `ring` oldest first. -/
structure TallyUnit where
  opened : OpenShift
  ring : List ClosedShift
deriving DecidableEq, Repr

/-! ## Line unit -/

/-- The kinds of a peer (R182). -/
inductive PeerKind
  | frame
  | piecer
  | doffer
  | rail
  | office
  | unknown
deriving DecidableEq, Repr

/-- The forecast fields of a peer entry (R182). -/
structure PeerForecast where
  minutes : Nat
  received : Nat
  mode : FrameMode
deriving DecidableEq, Repr

/-- An entry of the peer table (R182); moments in milliseconds. -/
structure Peer where
  station : Nat
  kind : PeerKind
  group : Option Nat
  patrol : List Nat
  lastHeard : Nat
  holdUntil : Option Nat
  forecast : Option PeerForecast
deriving DecidableEq, Repr

/-- What the transmitter does with the notice in flight (R171, R172). -/
inductive SendPhase
  | sending (since : Nat)
  | jamming (ends : Nat)
  | backingOff (ends : Nat)
deriving DecidableEq, Repr

/-- The notice in flight with its attempt count (R170, R172). -/
structure SendFlight where
  notice : Notice
  attempts : Nat
  phase : SendPhase
deriving DecidableEq, Repr

/-- The moment each block was handed the notice it is busy with (R178). -/
structure BusyBlocks where
  spindleTable : Option Nat
  dispatcher : Option Nat
  frameDoff : Option Nat
  roving : Option Nat
  tally : Option Nat
deriving DecidableEq, Repr

/-- The line unit (R165 to R189); `ownHold` is the expiry in milliseconds. -/
structure LineUnit where
  urgent : List Notice
  routine : List Notice
  flight : Option SendFlight
  pacing : Nat
  lfsr : BitVec 16
  inbound : List Notice
  busy : BusyBlocks
  ownHold : Option Nat
  peers : List Peer
  clash : Nat
  isolated : Bool
  isolationStart : Nat
  lastTransition : Nat
  receiving : Bool
deriving DecidableEq, Repr

/-- R187: the line unit after either start, for a strap value and the moment the receiver begins work. -/
def LineUnit.fresh (strap : Nat) (now : Nat) : LineUnit :=
  { urgent := [], routine := [], flight := none, pacing := 0, lfsr := BitVec.ofNat 16 (257 * strap),
    inbound := [], busy := ⟨none, none, none, none, none⟩, ownHold := none, peers := [], clash := 0,
    isolated := false, isolationStart := now, lastTransition := now, receiving := false }

/-! ## The whole part -/

/-- The state of the GX412 and the commands that wait, first in, first out. -/
structure State where
  pending : List Instr
  clock : Nat
  minutesBegun : Nat
  freeUses : Nat
  start : StartUnit
  pins : Pins
  chain : ChainUnit
  table : SpindleTable
  pieces : Dispatcher
  drive : DriveUnit
  frame : FrameUnit
  roving : RovingUnit
  tally : TallyUnit
  line : LineUnit
deriving DecidableEq, Repr

/-- The model stops with no fault: the spec names no stop of the part (INVENTORY.md, Faults). -/
inductive Fault
deriving DecidableEq, Repr

/-- Why a command has no outcome. -/
inductive Refusal
  /-- The command of that mnemonic has no meaning in this model yet; raised by `exec` alone; safe. -/
  | notModelled (mnemonic : String)
deriving DecidableEq, Repr

/-- The machine right after reset: the beginning of a cold start (R195 steps 1 and 2), part time 0, every record at
its cold value, the configuration not yet read, the strap pins read as 0 (DESIGN CHOICE, log 4), no command waiting. -/
def State.reset : State :=
  { pending := [], clock := 0, minutesBegun := 0, freeUses := 0,
    start := { phase := .reading, phaseStart := 0, fresh := true, strap := 0, image := [],
               settings := Settings.unread, keptA := 0, keptB := 0 },
    pins := Pins.idle,
    chain := ChainUnit.fresh 0 0 [] [],
    table := { recs := [], breakList := [], heldA := 0, heldB := 0 },
    pieces := { calls := [], serial := 1, verifyInUse := 0 },
    drive := DriveUnit.fresh 0 0,
    frame := FrameUnit.fresh,
    roving := { recs := [], batchDue := none, askSeq := 1 },
    tally := { opened := OpenShift.first, ring := [] },
    line := LineUnit.fresh 0 0 }

end Sys2Proof.Machine
end

