-- ==== Sys2Proof/Machine/Operands.lean ====
section
/-! DEFINITION. The operand forms: the codes and bytes of the notice frame and its payloads (R200 to R202), the check
(R166), and the bits the part shifts out on the line and on a drive chain (R4, R166). -/

namespace Sys2Proof.Machine

/-! ## Bytes, most significant first -/

/-- A one-byte field. -/
def byteField (n : Nat) : List Byte := [BitVec.ofNat 8 n]

/-- A two-byte field, most significant byte first (R200). -/
def wordField (n : Nat) : List Byte := [BitVec.ofNat 8 (n / 256), BitVec.ofNat 8 n]

/-- A three-byte field, most significant byte first. -/
def tripleField (n : Nat) : List Byte :=
  [BitVec.ofNat 8 (n / 65536), BitVec.ofNat 8 (n / 256), BitVec.ofNat 8 n]

/-- A four-byte field, most significant byte first. -/
def longField (n : Nat) : List Byte :=
  [BitVec.ofNat 8 (n / 16777216), BitVec.ofNat 8 (n / 65536), BitVec.ofNat 8 (n / 256), BitVec.ofNat 8 n]

/-- The byte at an offset as a number; 0 beyond the end. -/
def byteAt (l : List Byte) (k : Nat) : Nat := (l.getD k 0).toNat

/-- The two-byte field at an offset (R202). -/
def wordAt (l : List Byte) (k : Nat) : Nat := 256 * byteAt l k + byteAt l (k + 1)

/-- The four-byte field at an offset (R202). -/
def longAt (l : List Byte) (k : Nat) : Nat := 65536 * wordAt l k + wordAt l (k + 2)

/-! ## Kind codes (R201) -/

/-- The kind code of a kind (R201). -/
def Kind.code : Kind → Nat
  | .hello => 1
  | .patrol => 2
  | .forecast => 3
  | .hold => 4
  | .call => 16
  | .cancel => 17
  | .take => 18
  | .assign => 19
  | .done => 20
  | .close => 21
  | .doffClaim => 32
  | .doffQueued => 33
  | .doffGrant => 34
  | .doffStart => 35
  | .doffEnd => 36
  | .doffAbort => 37
  | .doffRefuse => 38
  | .rovingAsk => 48
  | .rovingAck => 49
  | .rovingDefer => 50
  | .rovingLaid => 51
  | .shiftChange => 64
  | .unlock => 65
  | .tallyQuery => 66
  | .tally => 67
  | .tallyNone => 68

/-- The kinds in the order of the kind table (R201). -/
def Kind.all : List Kind :=
  [.hello, .patrol, .forecast, .hold, .call, .cancel, .take, .assign, .done, .close, .doffClaim, .doffQueued,
   .doffGrant, .doffStart, .doffEnd, .doffAbort, .doffRefuse, .rovingAsk, .rovingAck, .rovingDefer, .rovingLaid,
   .shiftChange, .unlock, .tallyQuery, .tally, .tallyNone]

/-- The kind of a kind byte; absent for a value outside the kind table (R201). -/
def Kind.ofCode (n : Nat) : Option Kind := Kind.all.find? (fun k => k.code == n)

/-- The class of a kind: urgent or routine (R201). -/
def Kind.urgent : Kind → Bool
  | .hello => true
  | .patrol => false
  | .forecast => false
  | .hold => true
  | .call => false
  | .cancel => false
  | .take => true
  | .assign => true
  | .done => true
  | .close => true
  | .doffClaim => true
  | .doffQueued => true
  | .doffGrant => true
  | .doffStart => true
  | .doffEnd => true
  | .doffAbort => true
  | .doffRefuse => true
  | .rovingAsk => true
  | .rovingAck => true
  | .rovingDefer => true
  | .rovingLaid => true
  | .shiftChange => true
  | .unlock => true
  | .tallyQuery => false
  | .tally => false
  | .tallyNone => false

/-- The least payload the part acts on; absent for a kind it drops on receipt (R201). -/
def Kind.leastPayload : Kind → Option Nat
  | .hello => some 3
  | .patrol => some 0
  | .forecast => some 7
  | .hold => some 1
  | .call => none
  | .cancel => none
  | .take => some 2
  | .assign => none
  | .done => some 4
  | .close => none
  | .doffClaim => none
  | .doffQueued => some 1
  | .doffGrant => some 1
  | .doffStart => some 0
  | .doffEnd => some 0
  | .doffAbort => some 0
  | .doffRefuse => none
  | .rovingAsk => none
  | .rovingAck => some 1
  | .rovingDefer => some 1
  | .rovingLaid => some 3
  | .shiftChange => some 6
  | .unlock => some 2
  | .tallyQuery => some 0
  | .tally => none
  | .tallyNone => none

/-- The block that takes an accepted notice of a kind from the inbound queue (R176). -/
def Kind.owner : Kind → Option Block
  | .hello => none
  | .patrol => none
  | .forecast => none
  | .hold => none
  | .call => none
  | .cancel => none
  | .take => some .dispatcher
  | .assign => none
  | .done => some .dispatcher
  | .close => none
  | .doffClaim => none
  | .doffQueued => some .frameDoff
  | .doffGrant => some .frameDoff
  | .doffStart => some .frameDoff
  | .doffEnd => some .frameDoff
  | .doffAbort => some .frameDoff
  | .doffRefuse => none
  | .rovingAsk => none
  | .rovingAck => some .roving
  | .rovingDefer => some .roving
  | .rovingLaid => some .roving
  | .shiftChange => some .tally
  | .unlock => some .spindleTable
  | .tallyQuery => some .tally
  | .tally => none
  | .tallyNone => none

/-- The class of a notice; a kind outside the table never queues (R176). -/
def Notice.urgent (n : Notice) : Bool :=
  match n.kind with
  | some k => k.urgent
  | none => false

/-! ## Field codes (R202) -/

/-- The frame mode codes of FORECAST, DOFF-CLAIM and DOFF-REFUSE (R202). -/
def modeCode : FrameMode → Nat
  | .halted => 0
  | .running => 1
  | .restart => 2
  | .fullStop => 3
  | .fullWait => 4
  | .doffing => 5
  | .doffStall => 6
  | .stopped => 7

/-- The frame mode of a code; absent for a code above 7 (R202). -/
def modeOfCode : Nat → Option FrameMode
  | 0 => some .halted
  | 1 => some .running
  | 2 => some .restart
  | 3 => some .fullStop
  | 4 => some .fullWait
  | 5 => some .doffing
  | 6 => some .doffStall
  | 7 => some .stopped
  | _ => none

/-- The station kind a HELLO carries; any other value is unknown (R202). -/
def peerKindOfCode : Nat → PeerKind
  | 1 => .frame
  | 2 => .piecer
  | 3 => .doffer
  | 4 => .rail
  | 5 => .office
  | _ => .unknown

/-- The side code of CALL and ASSIGN: 1 A, 2 B (R202). -/
def sideCode : Side → Nat
  | .A => 1
  | .B => 2

/-- The reasons of CLOSE (R77). -/
inductive CloseReason
  | pieced
  | noted
  | lapsed
  | cancelled
  | blind
  | runOut
  | takenElsewhere
  | gone
deriving DecidableEq, Repr

/-- The codes of the CLOSE reasons (R202). -/
def CloseReason.code : CloseReason → Nat
  | .pieced => 1
  | .noted => 2
  | .lapsed => 3
  | .cancelled => 4
  | .blind => 5
  | .runOut => 6
  | .takenElsewhere => 7
  | .gone => 8

/-! ## The check (R166) -/

/-- One bit of the check: division by x^16 + x^12 + x^5 + 1, shifted toward the most significant end. -/
def checkBit (reg : BitVec 16) (bit : Bool) : BitVec 16 :=
  if reg.getLsbD 15 != bit then (reg <<< 1) ^^^ 0x1021#16 else reg <<< 1

/-- The bits of a byte, most significant first. -/
def byteBits (b : Byte) : List Bool :=
  [b.getLsbD 7, b.getLsbD 6, b.getLsbD 5, b.getLsbD 4, b.getLsbD 3, b.getLsbD 2, b.getLsbD 1, b.getLsbD 0]

/-- The check over the bytes from the destination to the last payload byte (R166). -/
def checkOf (bytes : List Byte) : BitVec 16 := (bytes.flatMap byteBits).foldl checkBit 0xFFFF#16

/-! ## The notice frame (R200) -/

/-- The bytes of a notice from the destination to the last payload byte; the part sends no kind outside the table. -/
def Notice.body (n : Notice) : List Byte :=
  byteField n.dst ++ byteField n.src ++ byteField ((n.kind.map Kind.code).getD 0) ++
    byteField (if n.fresh then 1 else 0) ++ wordField n.reference ++ byteField n.payload.length ++ n.payload

/-- The bytes of the notice frame, the check last (R200). -/
def Notice.bytes (n : Notice) : List Byte := n.body ++ wordField (checkOf n.body).toNat

/-- The 16 preamble bits before the first byte: 14 alternating bits, then the start mark (R166). -/
def preamble : List Bool :=
  [true, false, true, false, true, false, true, false, true, false, true, false, true, false, true, true]

/-- The bits of a notice on the wire, first bit first (R166). -/
def Notice.wireBits (n : Notice) : List Bool := preamble ++ n.bytes.flatMap byteBits

/-- The two half-bit levels of a bit: a 1 is high then low, a 0 low then high (R165). -/
def manchester (bit : Bool) : List Bool := [bit, !bit]

/-- The levels that drive the line for some bits, two for each bit time (R165). -/
def lineLevels (bits : List Bool) : List Bool := bits.flatMap manchester

/-- The 32 alternating bits of the jam that ends at a moment; which comes first is a free value (R171, log 35). -/
def jamBits (ends : Nat) : List Bool := (List.range 32).map (fun k => Config.freeJamBit ends ^^ (k % 2 == 1))

/-- The number of bits of a notice on the wire: 16 and 8 for each of the 9 + length bytes. -/
def Notice.bitCount (n : Notice) : Nat := 16 + 8 * (9 + n.payload.length)

/-- A frame that is neither short nor long (R174): its bytes agree with its length field. -/
def frameSized (bytes : List Byte) : Bool :=
  9 ≤ bytes.length && bytes.length ≤ 41 && byteAt bytes 6 ≤ 32 && bytes.length == 9 + byteAt bytes 6

/-- The check a frame carries, its last two bytes (R200). -/
def carriedCheck (bytes : List Byte) : Nat := wordAt bytes (bytes.length - 2)

/-- A good frame: neither short, nor long, nor a check error (R174). -/
def goodFrame (bytes : List Byte) : Bool :=
  frameSized bytes && carriedCheck bytes == (checkOf (bytes.take (bytes.length - 2))).toNat

/-- The notice of a good frame: bit 0 of the flags is read of a HELLO only (R200). -/
def noticeOf (bytes : List Byte) : Notice :=
  let kind := Kind.ofCode (byteAt bytes 2)
  { dst := byteAt bytes 0, src := byteAt bytes 1, kind := kind,
    fresh := kind == some .hello && byteAt bytes 3 % 2 == 1, reference := wordAt bytes 4,
    payload := (bytes.drop 7).take (byteAt bytes 6) }

/-! ## The drive chain (R4) -/

/-- The bits shifted out in a drive pass, first bit first: last module first, position 8 down to 1, lamp then clamp. -/
def driveStream (bits : List DriveBits) : List Bool := bits.reverse.flatMap (fun b => [b.lamp, b.clamp])

end Sys2Proof.Machine
end

