-- ==== Sys2Proof/Machine/Ops.lean ====
section
/-! DEFINITION. The shared operations: one setter for each unit of the state, part time, the counts of the open shift
record, the numbering of spindles, modules and sections, and the handing of notices to the outbound queues. -/

namespace Sys2Proof.Machine

/-! ## Setters, one for each unit -/

def State.withPending (s : State) (v : List Instr) : State := { s with pending := v }
def State.withClock (s : State) (v : Nat) : State := { s with clock := v }
def State.withMinutesBegun (s : State) (v : Nat) : State := { s with minutesBegun := v }
def State.withFreeUses (s : State) (v : Nat) : State := { s with freeUses := v }
def State.withStart (s : State) (v : StartUnit) : State := { s with start := v }
def State.withPins (s : State) (v : Pins) : State := { s with pins := v }
def State.withChain (s : State) (v : ChainUnit) : State := { s with chain := v }
def State.withTable (s : State) (v : SpindleTable) : State := { s with table := v }
def State.withPieces (s : State) (v : Dispatcher) : State := { s with pieces := v }
def State.withDrive (s : State) (v : DriveUnit) : State := { s with drive := v }
def State.withFrame (s : State) (v : FrameUnit) : State := { s with frame := v }
def State.withRoving (s : State) (v : RovingUnit) : State := { s with roving := v }
def State.withTally (s : State) (v : TallyUnit) : State := { s with tally := v }
def State.withLine (s : State) (v : LineUnit) : State := { s with line := v }

/-! ## Part time (R199) -/

/-- The present part time in whole milliseconds (R199). -/
def State.nowMs (s : State) : Nat := s.clock / 1000

/-- The present frame second (R199). -/
def State.second (s : State) : Nat := s.clock / 1000000

/-- The present frame minute (R199). -/
def State.minute (s : State) : Nat := s.clock / 60000000

/-- Part time counts in every condition but without supply and while the reset pin is asserted (R199). -/
def State.clockRuns (s : State) : Bool := s.start.phase != .off && s.start.phase != .inReset

/-- Part time reaches the moment of the command; it never runs back (log 1). -/
def State.reach (s : State) (t : Nat) : State :=
  if s.clockRuns then s.withClock (max s.clock t) else s

/-- A timer that runs has reached its moment. -/
def reached (due : Option Nat) (now : Nat) : Bool :=
  match due with
  | some d => d ≤ now
  | none => false

/-! ## The start (R194 to R197) -/

/-- The settings of the start in force. -/
def State.cfg (s : State) : Settings := s.start.settings

/-- The part is active: the start has gone through step 5 (R197). -/
def State.active (s : State) : Bool := s.start.phase == .active

/-- The receiver works and pulses are counted: the listening period or later (R188, R195). -/
def State.listens (s : State) : Bool := s.start.phase == .listening || s.start.phase == .active

/-- What a command's meaning answers. -/
abbrev Effect := Host.Outcome State Fault Refusal

/-- The command acts at its moment `t` while the part is active; before that it changes the clock alone (R188, R194). -/
def State.whileActive (s : State) (t : Nat) (f : State → State) : State :=
  if (s.reach t).active then f (s.reach t) else s.reach t

/-- The moment a block was handed the notice it is busy with. -/
def BusyBlocks.of (b : BusyBlocks) : Block → Option Nat
  | .spindleTable => b.spindleTable
  | .dispatcher => b.dispatcher
  | .frameDoff => b.frameDoff
  | .roving => b.roving
  | .tally => b.tally

/-- A block becomes busy, or has finished. -/
def BusyBlocks.set (b : BusyBlocks) (block : Block) (v : Option Nat) : BusyBlocks :=
  match block with
  | .spindleTable => { b with spindleTable := v }
  | .dispatcher => { b with dispatcher := v }
  | .frameDoff => { b with frameDoff := v }
  | .roving => { b with roving := v }
  | .tally => { b with tally := v }

/-- The longest time a block is busy with a handed notice has passed: below 1 ms, for the tally unit at most 30 ms
(R178). -/
def surelyDone (b : Block) (since now : Nat) : Bool :=
  match b with
  | .spindleTable => since + Config.busyTime ≤ now
  | .dispatcher => since + Config.busyTime ≤ now
  | .frameDoff => since + Config.busyTime ≤ now
  | .roving => since + Config.busyTime ≤ now
  | .tally => since + Config.tallyBusyTime < now

/-- A block can be handed a notice: it has finished with the one before, or must have by now (R178, log 28). -/
def State.blockFree (s : State) (block : Block) : Bool :=
  match s.line.busy.of block with
  | none => true
  | some since => surelyDone block since s.clock

/-- A block is busy with a notice handed to it at the present moment (R178). -/
def State.makeBusy (s : State) (block : Block) : State :=
  s.withLine { s.line with busy := s.line.busy.set block (some s.clock) }

/-- A block takes a notice handed to it at the moment `t`, as one event, and is busy with it from then on; a block that
works on a notice, or for which an earlier notice waits, is handed none (R178, log 11). -/
def State.whileHanded (s : State) (t : Nat) (block : Block) (f : State → State) : State :=
  s.whileActive t (fun s => if s.line.inbound.isEmpty && s.blockFree block then f (s.makeBusy block) else s)

/-- The command acts at its moment `t` from the start of the listening period on (R188, R197). -/
def State.whileListening (s : State) (t : Nat) (f : State → State) : State :=
  if (s.reach t).listens then f (s.reach t) else s.reach t

/-! ## The inputs and their filter (R90, R204) -/

/-- The level of an input that last stood 10 ms. -/
def Pins.level (p : Pins) : Input → Bool
  | .runPermit => p.runPermit
  | .driveFault => p.driveFault
  | .atDoff => p.atDoff
  | .stop => p.stop
  | .doffDone => p.doffDone
  | .clearA => p.clearA
  | .clearB => p.clearB

/-- The moment at which the last change of an input was taken. -/
def PinChanges.of (c : PinChanges) : Input → Option Nat
  | .runPermit => c.runPermit
  | .driveFault => c.driveFault
  | .atDoff => c.atDoff
  | .stop => c.stop
  | .doffDone => c.doffDone
  | .clearA => c.clearA
  | .clearB => c.clearB

/-- A change of an input to a level, taken at a moment; no moment while the filter does not work. -/
def Pins.take (p : Pins) (i : Input) (level : Bool) (at_ : Option Nat) : Pins :=
  match i with
  | .runPermit => { p with runPermit := level, changes := { p.changes with runPermit := at_ } }
  | .driveFault => { p with driveFault := level, changes := { p.changes with driveFault := at_ } }
  | .atDoff => { p with atDoff := level, changes := { p.changes with atDoff := at_ } }
  | .stop => { p with stop := level, changes := { p.changes with stop := at_ } }
  | .doffDone => { p with doffDone := level, changes := { p.changes with doffDone := at_ } }
  | .clearA => { p with clearA := level, changes := { p.changes with clearA := at_ } }
  | .clearB => { p with clearB := level, changes := { p.changes with clearB := at_ } }

/-- R204: a change of an input to a level can be taken: the level differs from the one taken last, and since that one was
taken 10 ms have passed, in which the new level stood unbroken. While part time does not run the filter does not work
and a level is taken as it stands (log 36). -/
def State.levelChanges (s : State) (i : Input) (level : Bool) : Bool :=
  s.pins.level i != level &&
    (!s.clockRuns ||
      (match s.pins.changes.of i with
       | some u => u + Config.filterTime ≤ s.clock
       | none => true))

/-- R204: a change of an input is taken at the moment `t` in every phase (log 27); it is acted on while the part is
active. -/
def State.onChange (s : State) (t : Nat) (i : Input) (level : Bool) (act : State → State) : State :=
  let s1 := s.reach t
  if s1.levelChanges i level then
    let s2 := s1.withPins (s1.pins.take i level (if s1.clockRuns then some s1.clock else none))
    if s1.active then act s2 else s2
  else s1

/-! ## Counts of the open shift record (R143) -/

/-- A count rises by an amount and stops at its field maximum (R141, R143). -/
def raise (top amount n : Nat) : Nat := saturate top (n + amount)

/-- A change of the counts of the frame part (R141). -/
def State.tallyFrame (s : State) (f : FrameCounts → FrameCounts) : State :=
  s.withTally { s.tally with opened := { s.tally.opened with counts := f s.tally.opened.counts } }

/-- A change of the counts of one side (R142). -/
def State.tallySide (s : State) (side : Side) (f : SideCounts → SideCounts) : State :=
  match side with
  | .A => s.withTally { s.tally with opened := { s.tally.opened with sideA := f s.tally.opened.sideA } }
  | .B => s.withTally { s.tally with opened := { s.tally.opened with sideB := f s.tally.opened.sideB } }

/-! ## Numbering (R1, R22, R118) -/

/-- nA: 24 spindles for each section of side A (R22). -/
def State.spindlesA (s : State) : Nat := 24 * s.cfg.sectionsA

/-- nB (R22). -/
def State.spindlesB (s : State) : Nat := 24 * s.cfg.sectionsB

/-- The side of a spindle number (R22). -/
def State.sideOf (s : State) (n : Nat) : Side := if n ≤ s.spindlesA then .A else .B

/-- The number of the first spindle of a side, less one (R1). -/
def State.sideBase (s : State) (side : Side) : Nat :=
  match side with
  | .A => 0
  | .B => s.spindlesA

/-- The spindles of a side (R22). -/
def State.sideSpindles (s : State) (side : Side) : Nat :=
  match side with
  | .A => s.spindlesA
  | .B => s.spindlesB

/-- A spindle's number counted from the head end of its own side, from 1. -/
def State.onSide (s : State) (n : Nat) : Nat := n - s.sideBase (s.sideOf n)

/-- The module of a spindle on its side (R1). -/
def State.moduleOf (s : State) (n : Nat) : Nat := (s.onSide n - 1) / 8 + 1

/-- The position of a spindle in its module, 1..8 (R1). -/
def State.positionOf (s : State) (n : Nat) : Nat := (s.onSide n - 1) % 8 + 1

/-- The creel section of a module of a side (R1). -/
def sectionOfModule (side : Side) (m : Nat) : Nat :=
  match side with
  | .A => ceilDiv m 3
  | .B => 24 + ceilDiv m 3

/-- The creel section of a spindle (R1). -/
def State.sectionOf (s : State) (n : Nat) : Nat := sectionOfModule (s.sideOf n) (s.moduleOf n)

/-- The modules of a side: three for each section (R1). -/
def State.modulesOf (s : State) (side : Side) : Nat :=
  match side with
  | .A => 3 * s.cfg.sectionsA
  | .B => 3 * s.cfg.sectionsB

/-- The eight spindles of module m of a side, in order of position (R1). -/
def State.moduleSpindles (s : State) (side : Side) (m : Nat) : List Nat :=
  (List.range 8).map (fun q => s.sideBase side + 8 * (m - 1) + q + 1)

/-- Every spindle of a side, in ascending order (R22). -/
def State.spindlesOf (s : State) (side : Side) : List Nat :=
  (List.range (s.sideSpindles side)).map (fun k => s.sideBase side + k + 1)

/-! ## Spindle records (R22) -/

/-- The record of a spindle number; absent for a number outside 1..nA + nB. -/
def State.spindle (s : State) (n : Nat) : Option SpindleRec :=
  if n = 0 then none else s.table.recs[n - 1]?

/-- A change of one spindle's record. -/
def State.editSpindle (s : State) (n : Nat) (f : SpindleRec → SpindleRec) : State :=
  if n = 0 then s else s.withTable { s.table with recs := s.table.recs.modify (n - 1) f }

/-- A change of every record by its spindle number. -/
def State.editSpindles (s : State) (f : Nat → SpindleRec → SpindleRec) : State :=
  s.withTable { s.table with recs := s.table.recs.mapIdx (fun k r => f (k + 1) r) }

/-- The run counter returns to 0 on a change from UP or to UP and is kept otherwise (R17). -/
def SpindleRec.enter (r : SpindleRec) (new : SpindleState) : SpindleRec :=
  { r with state := new, run := if (r.state == .up) == (new == .up) then r.run else 0 }

/-- A spindle joins the break list at the tail (R23). -/
def State.joinBreaks (s : State) (n : Nat) : State :=
  s.withTable { s.table with breakList := s.table.breakList ++ [n] }

/-- A spindle leaves the break list; the entries behind it close up (R23). -/
def State.leaveBreaks (s : State) (n : Nat) : State :=
  s.withTable { s.table with breakList := s.table.breakList.filter (fun m => m != n) }

/-- The failed attempts a spindle has on its present break; 0 for a number without a record. -/
def State.attemptsOf (s : State) (n : Nat) : Nat :=
  match s.spindle n with
  | some r => r.attempts
  | none => 0

/-- Seconds since the spindle last joined the break list (R67, R68). -/
def State.ageOf (s : State) (n : Nat) : Nat :=
  match s.spindle n with
  | some r => s.second - r.downSince
  | none => 0

/-! ## Supply records (R118) -/

/-- The supply record of a section number; absent for a section not configured. -/
def State.supply (s : State) (creel : Nat) : Option SupplyRec :=
  s.roving.recs.find? (fun r => r.creel == creel)

/-- A change of the supply records. -/
def State.editSupplies (s : State) (f : SupplyRec → SupplyRec) : State :=
  s.withRoving { s.roving with recs := s.roving.recs.map f }

/-- A change of one section's supply record. -/
def State.editSupply (s : State) (creel : Nat) (f : SupplyRec → SupplyRec) : State :=
  s.editSupplies (fun r => if r.creel = creel then f r else r)

/-- The section's supply state is RUN-OUT (R24). -/
def State.sectionRunOut (s : State) (creel : Nat) : Bool :=
  match s.supply creel with
  | some r => r.state == .runOut
  | none => false

/-! ## Sorting, without well-founded recursion -/

/-- Insertion before the first element it does not follow. -/
def insertBy {α : Type} (before : α → α → Bool) (x : α) : List α → List α
  | [] => [x]
  | y :: ys => if before x y then x :: y :: ys else y :: insertBy before x ys

/-- A stable insertion sort. -/
def sortBy {α : Type} (before : α → α → Bool) : List α → List α
  | [] => []
  | x :: xs => insertBy before x (sortBy before xs)

/-- Lists of at most `size` elements, in order; `fuel` bounds their number. -/
def chunks {α : Type} (size : Nat) : Nat → List α → List (List α)
  | 0, _ => []
  | _ + 1, [] => []
  | fuel + 1, x :: xs => (x :: xs).take size :: chunks size fuel ((x :: xs).drop size)

/-! ## Handing notices to the outbound queues (R167, R168) -/

/-- A notice of the part's own (R200). -/
def State.notice (s : State) (kind : Kind) (dst reference : Nat) (payload : List Byte) : Notice :=
  { dst := dst, src := s.start.strap, kind := some kind, fresh := false, reference := reference, payload := payload }

/-- A FORECAST or a HELLO replaces the waiting one (R168). -/
def Notice.replaces (n m : Notice) : Bool :=
  (n.kind == some .forecast || n.kind == some .hello) && m.kind == n.kind

/-- The queue after a notice is handed to it; absent when the notice is dropped for a full queue (R167, R168). -/
def joinQueue (n : Notice) (q : List Notice) : Option (List Notice) :=
  if q.any (fun m => n.replaces m) then some (q.map (fun m => if n.replaces m then n else m))
  else if q.length < Config.outboundSlots then some (q ++ [n])
  else none

/-- R141: the send-failures count rises by one. -/
def State.sendFailure (s : State) : State :=
  s.tallyFrame (fun c => { c with sendFailures := raise 255 1 c.sendFailures })

/-- A notice is handed to the outbound queue of its class (R167). -/
def State.hand (s : State) (n : Notice) : State :=
  if n.urgent then
    match joinQueue n s.line.urgent with
    | some q => s.withLine { s.line with urgent := q }
    | none => s.sendFailure
  else
    match joinQueue n s.line.routine with
    | some q => s.withLine { s.line with routine := q }
    | none => s.sendFailure

end Sys2Proof.Machine
end

