-- ==== Sys2Proof/Machine/Flags.lean ====
section
/-! DEFINITION. The conditions the rules test and the output levels, each computed from the one place that decides it. -/

namespace Sys2Proof.Machine

/-! ## Frame modes -/

/-- RUNNING or RESTART, the modes in which calls are opened and debounce may run (R15, R66, R92). -/
def calling (m : FrameMode) : Bool := m == .running || m == .restart

/-- The modes with drive enable on (R59). -/
def driveOn (m : FrameMode) : Bool := m == .running || m == .restart || m == .fullStop

/-- The modes of a doff in progress, in which a fall of run permit sets the permit-dropped mark (R98). -/
def doffRound (m : FrameMode) : Bool := m == .fullWait || m == .doffing || m == .doffStall

/-- The modes of a peer whose present forecast is 0 (R105). -/
def doffStanding (m : FrameMode) : Bool := m == .fullStop || doffRound m

/-! ## Chain engine -/

/-- The record of a side. -/
def ChainUnit.side (c : ChainUnit) : Side → SideChain
  | .A => c.sideA
  | .B => c.sideB

/-- A change of the record of a side. -/
def ChainUnit.withSide (c : ChainUnit) (side : Side) (v : SideChain) : ChainUnit :=
  match side with
  | .A => { c with sideA := v }
  | .B => { c with sideB := v }

/-- A side is a broken chain while its trailer-missing count stands at 3 (R13). -/
def SideChain.broken (c : SideChain) : Bool := c.trailerMissing == 3

/-- The detect condition, evaluated at a sense pass end (R15). -/
def State.detects (s : State) : Bool :=
  calling s.frame.mode && s.drive.turning &&
    (match s.chain.rollerBegan with
     | some m => m + 1000 * s.cfg.detectDelay ≤ s.nowMs
     | none => false)

/-- The blind modules of both sides (R14). -/
def State.blindModules (s : State) : Nat :=
  s.chain.sideA.modules.countP (fun m => m.blind) + s.chain.sideB.modules.countP (fun m => m.blind)

/-! ## Roving -/

/-- The sections in RUN-OUT (R135). -/
def State.runOutSections (s : State) : Nat := s.roving.recs.countP (fun r => r.state == .runOut)

/-- At least one section is DUE (R123). -/
def State.anyDue (s : State) : Bool := s.roving.recs.any (fun r => r.state == .due)

/-! ## The line -/

/-- One bit time in microseconds: 8, 4 or 2 (R165, R203). -/
def State.bitTime (s : State) : Nat :=
  match s.cfg.lineRate with
  | 0 => 8
  | 1 => 4
  | _ => 2

/-- One period of the chain clock in microseconds: 8, 4, 2 or 1 (R2, R203). -/
def State.chainPeriod (s : State) : Nat :=
  match s.cfg.chainClock with
  | 0 => 8
  | 1 => 4
  | 2 => 2
  | _ => 1

/-- The transmitter drives the line: it sends a notice or its jam (R165, R171). -/
def State.transmits (s : State) : Bool :=
  match s.line.flight with
  | some f =>
    match f.phase with
    | .sending _ => true
    | .jamming _ => true
    | .backingOff _ => false
  | none => false

/-- The idle time of the line has reached so many bit times: the part does not drive it, and no transition has been noted
for so long (R165). -/
def State.quietFor (s : State) (bits : Nat) : Bool :=
  !s.transmits && s.line.lastTransition + bits * s.bitTime ≤ s.clock

/-- The same with no frame being received, whose transitions are noted at its end (log 16). -/
def State.idleFor (s : State) (bits : Nat) : Bool := !s.line.receiving && s.quietFor bits

/-! ## Passes on the chains (R2) -/

/-- The bits of a pass: 9 for each module and 12 of trailer, or 16 for each module (R2). -/
def State.passBits (s : State) (p : Pass) : Nat :=
  match p.kind with
  | .sense => 9 * s.modulesOf p.side + 12
  | .drive => 16 * s.modulesOf p.side

/-- The pass in flight has lasted so many bits at the chain clock (R2). -/
def State.flightLasted (s : State) (f : PassFlight) (bits : Nat) : Bool := f.since + bits * s.chainPeriod ≤ s.clock

/-- The bits of a pass in flight that have been shifted so far (R2). -/
def State.shifted (s : State) (f : PassFlight) : Nat := (s.clock - f.since) / s.chainPeriod

/-! ## Chain outputs (R1, R3, R4, R21, R204) -/

/-- The outputs of one side's chains: whether the chain clock runs (its output is low otherwise), and the levels of sense
load, drive latch and drive data. -/
structure ChainPins where
  clocking : Bool
  load : Bool
  latch : Bool
  data : Bool
deriving DecidableEq, Repr

/-- Every chain output of a side low. -/
def ChainPins.low : ChainPins := ⟨false, false, false, false⟩

/-- CHx_CLK, CHx_LOAD, CHx_LATCH and CHx_DDAT of a side: low for a side with no chain and while the part is not active
(R1, R21, R194, R196); a pulse is high at its moment alone, and drive data is low but for the bits of a drive pass
(R3, R4; log 24). -/
def State.chainPins (s : State) (side : Side) : ChainPins :=
  if s.active && 0 < s.modulesOf side then
    { clocking := s.chain.flight.any (fun f => f.pass.side == side && !s.flightLasted f (s.passBits f.pass))
      load := (s.chain.side side).loadedAt == some s.clock
      latch := (s.chain.side side).latchedAt == some s.clock
      data := s.chain.flight.any (fun f =>
        f.pass == ⟨side, .drive⟩ && (driveStream f.bits).getD (s.shifted f) false) }
  else ChainPins.low

/-! ## The configuration port and the line drivers (R165, R171, R191, R204) -/

/-- The outputs of the configuration port: select, whether its clock runs (low otherwise), and the data output. -/
structure ConfigPins where
  selected : Bool
  clocking : Bool
  data : Bool
deriving DecidableEq, Repr

/-- CFG_SEL, CFG_CLK and CFG_DO: driven while the 1,056 periods of a read last, one every 10 µs, and low otherwise (R191,
R204); the data output's level in each period is a free value (log 35). -/
def State.configPins (s : State) : ConfigPins :=
  if s.start.phase == .reading && s.clock < s.start.phaseStart + Config.readTime then
    ⟨true, true, Config.freePortBit s.start.phaseStart ((s.clock - s.start.phaseStart) / 10)⟩
  else ⟨false, false, false⟩

/-- The level that drives LINE_P and LINE_N, high when true; absent while the transmitter does not drive the line (R165,
R171, R204). -/
def State.lineLevel (s : State) : Option Bool :=
  if s.active then
    match s.line.flight with
    | some f =>
      match f.phase with
      | .sending since => (lineLevels f.notice.wireBits)[2 * (s.clock - since) / s.bitTime]?
      | .jamming ends => (lineLevels (jamBits ends))[2 * (s.clock + 32 * s.bitTime - ends) / s.bitTime]?
      | .backingOff _ => none
    | none => none
  else none

/-! ## Outputs (R59, R91, R194, R204) -/

/-- DRV_ENABLE (R59). -/
def State.driveEnable (s : State) : Bool := s.active && driveOn s.frame.mode

/-- DOFF_REQ: on while the mode is FULL-STOP (R91). -/
def State.doffRequest (s : State) : Bool := s.active && s.frame.mode == .fullStop

/-- DOFF_LAMP: lit while fill is 1000 (R91), off in reset and in configuration fault (R194, R196). -/
def State.doffLamp (s : State) : Bool := s.listens && s.drive.fill == 1000

/-- FAULT_LAMP: lit while any of its causes holds (R13, R91, R175, R194). -/
def State.faultLamp (s : State) : Bool :=
  s.start.phase == .configFault ||
    (s.listens &&
      (0 < s.line.clash || s.chain.sideA.broken || s.chain.sideB.broken || s.frame.mode == .doffStall ||
        (s.frame.mode == .stopped && (s.frame.reason == some .drive || s.frame.reason == some .position))))

/-- SPEED_PWM: high for so many 1,024ths of the present period (R57, R58); low in reset and in configuration fault. -/
def State.pwmShare (s : State) : Nat := if s.listens || s.start.phase == .reading then s.drive.dutyRunning else 0

end Sys2Proof.Machine
end

