-- ==== Sys2Proof/Machine/Piecing.lean ====
section
/-! DEFINITION. The piecing dispatcher's operations: the call serial, eligibility, the walk of the break list, the
notices CALL, CANCEL, ASSIGN and CLOSE, and the ending of calls (R63 to R84). -/

namespace Sys2Proof.Machine

/-! ## The call table -/

/-- A change of the dispatcher's calls. -/
def State.withCalls (s : State) (calls : List Call) : State := s.withPieces { s.pieces with calls := calls }

/-- The live call of a number (R71). -/
def State.liveCall (s : State) (number : Nat) : Option Call :=
  s.pieces.calls.find? (fun c => c.number == number)

/-- A change of the live call of a number. -/
def State.editCall (s : State) (number : Nat) (f : Call → Call) : State :=
  s.withCalls (s.pieces.calls.map (fun c => if c.number = number then f c else c))

/-- The slot of a call is freed (R84). -/
def State.freeCall (s : State) (number : Nat) : State :=
  s.withCalls (s.pieces.calls.filter (fun c => c.number != number))

/-- The serial after a value: 65,535 moves to 1 (R64). -/
def serialAfter (n : Nat) : Nat := if n < 65535 then n + 1 else 1

/-- The next serial that names no live call (R64); `fuel` is one more than the live calls can fill. -/
def nextSerial (calls : List Call) : Nat → Nat → Nat
  | 0, n => n
  | fuel + 1, n => if calls.any (fun c => c.number == n) then nextSerial calls fuel (serialAfter n) else n

/-! ## Notices of the dialogue (R68, R70, R72, R77, R202) -/

/-- Side, section, module and position of a spindle, one byte each (R202). -/
def State.placeBytes (s : State) (n : Nat) : List Byte :=
  byteField (sideCode (s.sideOf n)) ++ byteField (s.sectionOf n) ++ byteField (s.moduleOf n) ++
    byteField (s.positionOf n)

/-- CALL, broadcast, with the spindle's age and attempts as they stand (R68, R69). -/
def State.callNotice (s : State) (c : Call) : Notice :=
  s.notice .call 255 c.number
    (wordField c.spindle ++ s.placeBytes c.spindle ++ byteField c.repeats ++ byteField (s.attemptsOf c.spindle) ++
      wordField (min 65535 (s.ageOf c.spindle)))

/-- CANCEL, broadcast (R70). -/
def State.cancelNotice (s : State) (c : Call) : Notice := s.notice .cancel 255 c.number (wordField c.spindle)

/-- CLOSE to a station, about a call number and a spindle number (R77). -/
def State.closeNotice (s : State) (station number spindle : Nat) (reason : CloseReason) : Notice :=
  s.notice .close station number (wordField spindle ++ byteField reason.code)

/-- The piecing time left in whole seconds, rounded down; 0 in VERIFY (R72). -/
def State.timeLeft (s : State) (c : Call) : Nat :=
  match c.state with
  | .verify => 0
  | .opened => s.cfg.piecingTimeout
  | .taken => (1000 * s.cfg.piecingTimeout - (s.nowMs - c.takenAt.getD s.nowMs)) / 1000

/-- ASSIGN to the call's carriage (R72). -/
def State.assignNotice (s : State) (station : Nat) (c : Call) : Notice :=
  s.notice .assign station c.number
    (wordField c.spindle ++ s.placeBytes c.spindle ++ byteField (s.timeLeft c))

/-! ## Opening calls -/

/-- A serving carriage (R65). -/
def State.serving (s : State) (p : Peer) : Bool :=
  p.kind == .piecer && p.patrol.contains s.start.strap && s.nowMs ≤ p.lastHeard + Config.servingMs

/-- The live calls are fewer than the open-call limit (R66). -/
def State.slotFree (s : State) : Bool := s.pieces.calls.length < s.cfg.openCallLimit

/-- The four conditions of R66. -/
def State.mayOpen (s : State) : Bool :=
  calling s.frame.mode && !s.line.isolated && s.line.peers.any (fun p => s.serving p) && s.slotFree

/-- A spindle the walk chooses (R67). -/
def State.callable (s : State) (n : Nat) : Bool :=
  match s.spindle n with
  | some r =>
    r.state == .down && r.downSince + s.cfg.settleTime ≤ s.second &&
      (match r.notBefore with
       | some b => b ≤ s.second
       | none => true)
  | none => false

/-- The record of a call that opens now for a spindle (R68). -/
def State.newCall (s : State) (n : Nat) : Call :=
  { number := s.pieces.serial, spindle := n, state := .opened, carriage := none, openedAt := s.nowMs, repeats := 0,
    takenAt := none, verifyUntil := none }

/-- A call is opened for a spindle: slot, serial, spindle CALLED, CALL broadcast (R28, R64, R68). -/
def State.openCall (s : State) (n : Nat) : State :=
  let c := s.newCall n
  let calls := s.pieces.calls ++ [c]
  let s1 := s.withPieces
    { s.pieces with calls := calls, serial := nextSerial calls (calls.length + 1) (serialAfter c.number) }
  let s2 := s1.editSpindle n (fun r => { r.enter .called with call := some c.number, notBefore := none })
  s2.hand (s2.callNotice c)

/-- The walk at one entry of the break list: a call is opened while the limit is not reached (R67). -/
def State.walkAt (s : State) (n : Nat) : State := if s.slotFree && s.callable n then s.openCall n else s

/-- The walk of the break list from head to tail (R67). -/
def State.walk (s : State) : State := if s.mayOpen then s.table.breakList.foldl State.walkAt s else s

/-! ## Ending calls -/

/-- The notice that ends a call: CANCEL for an OPEN call, CLOSE to the carriage otherwise. -/
def State.endNotice (s : State) (c : Call) (reason : CloseReason) : Notice :=
  match c.state with
  | .opened => s.cancelNotice c
  | .taken => s.closeNotice (c.carriage.getD 0) c.number c.spindle reason
  | .verify => s.closeNotice (c.carriage.getD 0) c.number c.spindle reason

/-- The slot is freed and the ending announced (R84). -/
def State.endCall (s : State) (reason : CloseReason) (c : Call) : State :=
  (s.freeCall c.number).hand (s.endNotice c reason)

/-- The spindle of a call that ended without an attempt returns to DOWN, keeping its place (R29). -/
def State.releaseSpindle (s : State) (n : Nat) (notBefore : Option Nat) : State :=
  s.editSpindle n (fun r => { r.enter .down with call := none, notBefore := notBefore })

/-- `a` is taken before `b`: older opened-at, and among equals the free rank (R63, log 7). -/
def callBefore (rank : Nat → Nat) (a b : Call) : Bool :=
  a.openedAt < b.openedAt || (a.openedAt == b.openedAt && rank a.number ≤ rank b.number)

/-- Live calls in order of opened-at, oldest first (R63). -/
def State.inOrder (s : State) (calls : List Call) : List Call :=
  sortBy (callBefore (Config.freeCallRank s.freeUses)) calls

/-- Several calls end one after another; the free value is used once (R84). -/
def State.endCalls (s : State) (reason : CloseReason) (calls : List Call) : State :=
  ((s.inOrder calls).foldl (fun s c => s.endCall reason c) s).withFreeUses (s.freeUses + 1)

/-- R81: the frame leaves RUNNING or RESTART and every live call ends without an attempt. The walk that R84 lets
follow finds a mode that opens nothing, so it is left out (log 26). -/
def State.cancelAll (s : State) : State :=
  let calls := s.pieces.calls
  calls.foldl (fun s c => s.releaseSpindle c.spindle none) (s.endCalls .cancelled calls)

/-- R30: a failed piecing attempt of a spindle in TAKEN. -/
def State.failedAttempt (s : State) (n : Nat) : State :=
  if s.attemptsOf n + 1 < s.cfg.maxAttempts then
    s.editSpindle n (fun r =>
      { r.enter .down with call := none, attempts := r.attempts + 1,
                           notBefore := some (s.second + s.cfg.recallDelay) })
  else
    ((s.editSpindle n (fun r =>
        { r.enter .locked with call := none, attempts := s.cfg.maxAttempts, notBefore := none })).leaveBreaks n
      ).tallySide (s.sideOf n) (fun c => { c with locked := raise 255 1 c.locked })

/-- R78: the call handed with a declaration of up ends as pieced or as pieced by hand, and one walk follows (R84). -/
def State.confirmCall (s : State) (number : Nat) : State :=
  match s.liveCall number with
  | none => s
  | some c =>
    let s1 := s.endCall .pieced c
    let s2 :=
      match c.state with
      | .opened =>
        s1.tallySide (s.sideOf c.spindle) (fun k => { k with piecedByHand := raise 255 1 k.piecedByHand })
      | .taken => s1.tallySide (s.sideOf c.spindle) (fun k => { k with pieced := raise 65535 1 k.pieced })
      | .verify => s1.tallySide (s.sideOf c.spindle) (fun k => { k with pieced := raise 65535 1 k.pieced })
    s2.walk

end Sys2Proof.Machine
end

