-- ==== Sys2Proof/Machine/Spindles.lean ====
section
/-! DEFINITION. The spindle table's operations: delivery accounting, entering the down states, run-out and laying,
blind and recovered modules, doff completion, clearing (R24, R31 to R38). -/

namespace Sys2Proof.Machine

/-! ## Delivery accounting (R37, R38) -/

/-- A shift length with delivery added, saturating at its field maximum (R22, R37). -/
def addLength (length delivery : Nat) : Nat := saturate 16777215 (length + delivery)

/-- A held-delivery sum with delivery added, saturating at its maximum (R37). -/
def addHeld (sum delivery : Nat) : Nat := saturate 4294967295 (sum + delivery)

/-- The delivery of a spindle in UP is closed off against D (R37). -/
def SpindleRec.closeOff (r : SpindleRec) (d : DCount) : SpindleRec :=
  if r.state = .up then { r with length := addLength r.length (d - r.upMark).toNat, upMark := d } else r

/-- The held delivery of a record since its held-mark; 0 outside HELD (R37). -/
def SpindleRec.heldDelivery (r : SpindleRec) (d : DCount) : Nat :=
  match r.heldMark with
  | some m => (d - m).toNat
  | none => 0

/-- The held-delivery sum of a side. -/
def State.heldSum (s : State) : Side → Nat
  | .A => s.table.heldA
  | .B => s.table.heldB

/-- Held delivery is added to a side's sum (R37). -/
def State.addHeldSum (s : State) (side : Side) (delivery : Nat) : State :=
  match side with
  | .A => s.withTable { s.table with heldA := addHeld s.table.heldA delivery }
  | .B => s.withTable { s.table with heldB := addHeld s.table.heldB delivery }

/-! ## Entering the down states (R23, R24) -/

/-- DOWN, or RUN-OUT when the spindle's section is RUN-OUT (R24). -/
def State.downTarget (s : State) (n : Nat) : SpindleState :=
  if s.sectionRunOut (s.sectionOf n) then .runOut else .down

/-- A spindle enters the down states from UP, LOCKED or HELD at the tail of the break list (R23, R24). -/
def State.sendDown (s : State) (n : Nat) (f : SpindleRec → SpindleRec) : State :=
  (s.editSpindle n (fun r => { (f r).enter (s.downTarget n) with downSince := s.second, notBefore := none })).joinBreaks n

/-! ## Run-out and laying (R32, R33) -/

/-- The states a run-out takes to RUN-OUT (R32). -/
def SpindleState.mayRunOut (st : SpindleState) : Bool := st == .down || st == .called || st == .taken

/-- R32: the spindles of a section in DOWN, CALLED and TAKEN enter RUN-OUT; their live calls end first, oldest first
(R63, R83, log 8), and one walk follows if a slot was freed (R84). -/
def State.runOutSpindles (s : State) (creel : Nat) : State :=
  let calls := s.pieces.calls.filter (fun c => s.sectionOf c.spindle == creel)
  let s1 := s.endCalls .runOut calls
  let s2 := s1.editSpindles (fun n r =>
    if s.sectionOf n = creel && r.state.mayRunOut then
      { r.enter .runOut with call := none, notBefore := none }
    else r)
  if calls.isEmpty then s2 else s2.walk

/-- R33: every spindle of a laid section in RUN-OUT returns to DOWN with the settle time. -/
def State.laySpindles (s : State) (creel : Nat) : State :=
  s.editSpindles (fun n r =>
    if s.sectionOf n = creel && r.state == .runOut then
      { r.enter .down with notBefore := some (s.second + s.cfg.settleTime) }
    else r)

/-! ## Blind and recovered modules (R34, R35) -/

/-- The held-from of a spindle that leaves a state: DOWN for CALLED and TAKEN (R34). -/
def SpindleState.heldFrom : SpindleState → SpindleState
  | .called => .down
  | .taken => .down
  | .up => .up
  | .down => .down
  | .runOut => .runOut
  | .locked => .locked
  | .held => .held

/-- R34: a record as its module goes blind. -/
def SpindleRec.hold (r : SpindleRec) (d : DCount) : SpindleRec :=
  { (r.closeOff d).enter .held with heldFrom := some r.state.heldFrom, heldMark := some d, call := none,
                                    notBefore := none }

/-- R34: one spindle of a blind module; its live call ends by CANCEL or CLOSE(BLIND). A spindle already HELD has no
transition (R27). -/
def State.holdSpindle (s : State) (n : Nat) : State :=
  match s.spindle n with
  | none => s
  | some r =>
    if r.state = .held then s else
    let s1 := (s.editSpindle n (fun r => r.hold s.drive.d)).leaveBreaks n
    match r.call.bind s.liveCall with
    | some c => s1.endCall .blind c
    | none => s1

/-- A spindle holds a live call. -/
def State.hasCall (s : State) (n : Nat) : Bool :=
  match s.spindle n with
  | some r => (r.call.bind s.liveCall).isSome
  | none => false

/-- R34, R82: the spindles of a module go to HELD in order of position; one walk follows if a slot was freed. -/
def State.blindModule (s : State) (side : Side) (m : Nat) : State :=
  let spindles := s.moduleSpindles side m
  let s1 := spindles.foldl State.holdSpindle s
  if spindles.any s.hasCall then s1.walk else s1

/-- R35: one spindle of a recovered module returns by its held-from and the reading of the recovery pass. -/
def State.recoverSpindle (s : State) (n : Nat) (yarn : Bool) : State :=
  match s.spindle n with
  | none => s
  | some r =>
    let s1 := s.addHeldSum (s.sideOf n) (r.heldDelivery s.drive.d)
    let bare := fun (r : SpindleRec) => { r with heldFrom := none, heldMark := none }
    match r.heldFrom with
    | some .locked => s1.editSpindle n (fun r => { (bare r).enter .locked with notBefore := none })
    | some .up =>
      if yarn then s1.editSpindle n (fun r => { (bare r).enter .up with upMark := s.drive.d, notBefore := none })
      else s1.sendDown n bare
    | some .down => s1.sendDown n bare
    | some .runOut => s1.sendDown n bare
    | some .called => s1.sendDown n bare
    | some .taken => s1.sendDown n bare
    | some .held => s1.sendDown n bare
    | none => s

/-- R35: the spindles of a recovered module return in order of position, each with its reading. -/
def State.recoverModule (s : State) (side : Side) (m : Nat) (yarn : List Bool) : State :=
  ((s.moduleSpindles side m).zip yarn).foldl (fun s p => s.recoverSpindle p.1 p.2) s

/-! ## Doff completion (R36) -/

/-- R36: a record at a completed doff. -/
def SpindleRec.rebuild (r : SpindleRec) (d : DCount) : SpindleRec :=
  if r.state = .locked || r.state = .held then r
  else { (r.closeOff d).enter .up with upMark := d, attempts := 0, notBefore := none, call := none }

/-- R36: the records are rebuilt and the break list is emptied. -/
def State.rebuildSpindles (s : State) : State :=
  s.withTable { s.table with recs := s.table.recs.map (fun r => r.rebuild s.drive.d), breakList := [] }

/-! ## Clearing (R31) -/

/-- R31: one spindle is cleared if it is LOCKED, or HELD from LOCKED. -/
def State.clearSpindle (s : State) (n : Nat) : State :=
  match s.spindle n with
  | none => s
  | some r =>
    if r.state = .locked then s.sendDown n (fun r => { r with attempts := 0 })
    else if r.state = .held && r.heldFrom == some .locked then
      s.editSpindle n (fun r => { r with attempts := 0, heldFrom := some .down })
    else s

/-- R31: several spindles are cleared in ascending number. -/
def State.clearSpindles (s : State) (spindles : List Nat) : State := spindles.foldl State.clearSpindle s

/-- R31: what an UNLOCK that names a spindle number, or 0, clears. -/
def State.unlockSpindles (s : State) (n : Nat) : State :=
  if n = 0 then s.clearSpindles (s.spindlesOf .A ++ s.spindlesOf .B) else s.clearSpindle n

/-- The side-clear input of a side. -/
def clearInput : Side → Input
  | .A => .clearA
  | .B => .clearB

/-! ## The commands -/

/-- SIDE_CLEAR_PRESS (R31): a change from released to pressed clears the side. -/
def execSideClearPress (t : Nat) (side : Side) (s : State) : Effect :=
  .next (s.onChange t (clearInput side) true (fun s => s.clearSpindles (s.spindlesOf side)))

/-- UNLOCK (R31), taken by the spindle table. -/
def execUnlock (t : Nat) (spindle : Nat) (s : State) : Effect :=
  .next (s.whileHanded t .spindleTable (fun s => s.unlockSpindles spindle))

end Sys2Proof.Machine
end

