-- ==== Sys2Proof/Machine/Roving.lean ====
section
/-! DEFINITION. The roving unit: estimates, becoming due, asks to the rail and its answers, run-out, laying
(R118 to R137), and its commands. -/

namespace Sys2Proof.Machine

/-! ## Estimates (R119, R120) -/

/-- The remaining estimate of a record against D and the draft (R119). -/
def SupplyRec.estimate (r : SupplyRec) (d : DCount) (draft : Nat) : Nat :=
  r.laidLength - (d - r.laidMark).toNat * 100 / draft

/-- The time to run-out for a remaining estimate, a state, a rate and the draft (R120). -/
def timeToRunOut (remaining : Nat) (state : SupplyState) (rate : Option Nat) (draft : Nat) : Option Nat :=
  if remaining = 0 || state == .runOut then some 0
  else
    match rate with
    | none => none
    | some v => some (min 65534 (remaining * draft / (100 * v)))

/-- Both estimates of one record, at an update tick or a start (R119, R120). -/
def SupplyRec.estimated (r : SupplyRec) (d : DCount) (draft : Nat) (rate : Option Nat) : SupplyRec :=
  let remaining := r.estimate d draft
  { r with remaining := remaining, time := timeToRunOut remaining r.state rate draft }

/-! ## Asks (R123, R124) -/

/-- The order of R123: time to run-out, shortest first, unknown after all known, ties in ascending section number. -/
def askBefore (a b : SupplyRec) : Bool :=
  match a.time, b.time with
  | some x, some y => x < y || (x == y && a.creel ≤ b.creel)
  | some _, none => true
  | none, some _ => false
  | none, none => a.creel ≤ b.creel

/-- Ascending section number. -/
def creelBefore (a b : SupplyRec) : Bool := a.creel ≤ b.creel

/-- A record's time to run-out as a ROVING-ASK carries it: 0 for RUN-OUT, 65,535 for unknown (R124). -/
def SupplyRec.askTime (r : SupplyRec) : Nat := if r.state == .runOut then 0 else r.time.getD 65535

/-- One byte of the section mask: sections 8k + 1 to 8k + 8, the first in the most significant bit (R202). -/
def maskByte (listed : List Nat) (k : Nat) : Byte :=
  BitVec.ofNat 8 ((List.range 8).foldl (fun acc j => 2 * acc + (if listed.contains (8 * k + j + 1) then 1 else 0)) 0)

/-- The payload of a ROVING-ASK: within one notice the sections stand in ascending number (R202). -/
def askPayload (strap : Nat) (recs : List SupplyRec) : List Byte :=
  let listed := recs.map (fun r => r.creel)
  byteField strap ++ (List.range 6).map (maskByte listed) ++
    (sortBy creelBefore recs).flatMap (fun r => wordField r.askTime)

/-- The ask sequence after a value: 65,535 moves to 1 (R118). -/
def askSeqAfter (n : Nat) : Nat := if n < 65535 then n + 1 else 1

/-- One ROVING-ASK takes the present ask sequence and is handed to the urgent queue for the rail (R123). -/
def State.handAsk (s : State) (recs : List SupplyRec) : State :=
  (s.withRoving { s.roving with askSeq := askSeqAfter s.roving.askSeq }).hand
    (s.notice .rovingAsk s.cfg.railStation s.roving.askSeq (askPayload s.start.strap recs))

/-- Records, in their order, go in ROVING-ASK notices of at most 12 (R123). -/
def State.handAsks (s : State) (recs : List SupplyRec) : State :=
  (chunks Config.askSections recs.length recs).foldl State.handAsk s

/-- The end of an answer wait that begins now (R123). -/
def State.answerEnd (s : State) : Nat := s.nowMs + Config.rovingWaitMs

/-- The sections of these numbers, as their records stand. -/
def State.suppliesAmong (s : State) (creels : List Nat) : List SupplyRec :=
  s.roving.recs.filter (fun r => creels.contains r.creel)

/-! ## The batch timer (R122, R123) -/

/-- A section the batch gathers: DUE, or NONE within the lookahead (R123). -/
def State.gathers (s : State) (r : SupplyRec) : Bool :=
  r.state == .due ||
    (r.state == .none &&
      (match r.time with
       | some m => m ≤ s.cfg.railLead + s.cfg.lookahead
       | none => false))

/-- R123: the batch timer runs out; the gathered sections are asked for and become ASKED. -/
def State.batchRunsOut (s : State) : State :=
  let s1 := s.withRoving { s.roving with batchDue := none }
  if s1.anyDue then
    let gathered := sortBy askBefore (s1.roving.recs.filter s1.gathers)
    let s2 := s1.handAsks gathered
    s2.editSupplies (fun r =>
      if s1.gathers r then { r with state := .asked, asks := 1, retryAt := some s1.answerEnd } else r)
  else s1

/-- R122: the batch timer is started if it is stopped; with a batch delay of 0 it runs out in the same event. -/
def State.startBatch (s : State) : State :=
  match s.roving.batchDue with
  | some _ => s
  | none =>
    if s.cfg.batchDelay = 0 then s.batchRunsOut
    else s.withRoving { s.roving with batchDue := some (s.nowMs + 1000 * s.cfg.batchDelay) }

/-! ## Run-out (R130 to R133) -/

/-- R133 steps 1 and 2: the section is RUN-OUT, its spindles are taken from the carriages, and the record is set for
the rail's dialogue by the state it had. -/
def State.becomeRunOut (s : State) (creel : Nat) : State :=
  ((s.editSupply creel (fun r => { r with state := .runOut, time := some 0 })).runOutSpindles creel)

/-- R133 step 3: whether a section of that former state is asked for at once. -/
def SupplyState.asksAtRunOut (st : SupplyState) : Bool := st == .none || st == .due

/-- R133 step 3: sections that came to RUN-OUT from NONE or DUE are asked for at once, in ascending number. -/
def State.askRunOut (s : State) (creels : List Nat) : State :=
  let s1 := s.editSupplies (fun r =>
    if creels.contains r.creel then { r with asks := 1, retryAt := some s.answerEnd, eta := none } else r)
  s1.handAsks (sortBy creelBefore (s1.suppliesAmong creels))

/-- A second joins the recent breaks; of 12 the oldest is removed (R130). -/
def joinRecent (breaks : List Nat) (now : Nat) : List Nat :=
  (breaks ++ [now]).drop (breaks.length + 1 - 12)

/-- R131: the cluster check of a record, the new report included. -/
def State.clustered (s : State) (r : SupplyRec) : Bool :=
  r.state != .runOut && s.cfg.clusterCount ≤ r.breaks.countP (fun b => s.second ≤ b + Config.clusterWindow) &&
    r.remaining ≤ r.laidLength / 10

/-- R130, R131, R133: a report of a break for a section is recorded and may make the section RUN-OUT; each report is an
event of its own, with one ROVING-ASK for its section (DESIGN CHOICE, log 33). -/
def State.recordBreak (s : State) (creel : Nat) : State :=
  let s1 := s.editSupply creel (fun r => { r with breaks := joinRecent r.breaks s.second })
  match s1.supply creel with
  | none => s1
  | some r =>
    if s1.clustered r then
      let s2 := s1.becomeRunOut creel
      if r.state.asksAtRunOut then s2.askRunOut [creel] else s2
    else s1

/-! ## The update tick (R119 to R121, R132) -/

/-- R132: the sections whose estimate has just been computed as 0 become RUN-OUT, in ascending number. -/
def State.computedRunOuts (s : State) : List SupplyRec :=
  sortBy creelBefore (s.roving.recs.filter (fun r => r.remaining == 0 && r.state != .runOut))

/-- R121: a section in NONE becomes due by the time rule or the tenth rule. -/
def State.fallsDue (s : State) (r : SupplyRec) : Bool :=
  r.state == .none &&
    ((match r.time with
      | some m => m ≤ s.cfg.railLead
      | none => false) || r.remaining ≤ r.laidLength / 10)

/-- The roving unit's work of an update tick (R119 to R121, R132, R133; log 20). -/
def State.rovingTick (s : State) : State :=
  let s1 := s.editSupplies (fun r => r.estimated s.drive.d s.cfg.draft s.drive.rate)
  let ran := s1.computedRunOuts
  let s2 := ran.foldl (fun s r => s.becomeRunOut r.creel) s1
  let asking := (ran.filter (fun r => r.state.asksAtRunOut)).map (fun r => r.creel)
  let s3 := s2.askRunOut asking
  let falls := s3.roving.recs.any s3.fallsDue
  let s4 := s3.editSupplies (fun r => if s3.fallsDue r then { r with state := .due } else r)
  if falls then s4.startBatch else s4

/-! ## Answer waits (R125, R134) -/

/-- The earliest of some moments that has been reached. -/
def earliestReached (now : Nat) (moments : List Nat) : Option Nat :=
  (moments.filter (fun m => m ≤ now)).foldl (fun acc m => some (min m (acc.getD m))) none

/-- A section whose retry-at ends an answer wait, or is RUN-OUT's moment to ask again (R125, R134). -/
def SupplyRec.waitsFor (r : SupplyRec) (m : Nat) : Bool :=
  (r.state == .asked || r.state == .runOut) && r.retryAt == some m

/-- R141: the rail-silent count rises by one. -/
def State.railSilent (s : State) : State :=
  s.tallyFrame (fun c => { c with railSilent := raise 255 1 c.railSilent })

/-- R125, R134: the sections whose retry-at falls at the moment m are taken together in one event; the asks before the batch
(log 20). -/
def State.answerWaitEnds (s : State) (m : Nat) : State :=
  let waits := s.roving.recs.filter (fun r => r.waitsFor m)
  let again := waits.filter (fun r => r.asks < 5)
  let given := waits.filter (fun r => 5 ≤ r.asks)
  let s1 := s.editSupplies (fun r =>
    if r.waitsFor m then
      if r.asks < 5 then { r with asks := r.asks + 1, retryAt := some s.answerEnd }
      else if r.state == .asked then { r with state := .due, asks := 0, retryAt := none }
      else { r with asks := 0, retryAt := some (s.nowMs + 1000 * s.cfg.batchDelay) }
    else r)
  let s2 := s1.handAsks (sortBy askBefore again)
  let s3 := if given.isEmpty then s2 else s2.railSilent
  if given.any (fun r => r.state == .asked) then s3.startBatch else s3

/-- The moments at which an answer wait ends, or a RUN-OUT section is to be asked again. -/
def State.waitMoments (s : State) : List Nat :=
  (s.roving.recs.filter (fun r => r.state == .asked || r.state == .runOut)).filterMap (fun r => r.retryAt)

/-! ## The rail's answers (R126 to R129) -/

/-- R126: a record named by a ROVING-ACK. -/
def SupplyRec.acked (r : SupplyRec) (minutes now : Nat) : SupplyRec :=
  match r.state with
  | .asked => { r with state := .acked, eta := some ⟨minutes, now⟩, retryAt := none, asks := 0 }
  | .deferred => { r with state := .acked, eta := some ⟨minutes, now⟩, retryAt := none, asks := 0 }
  | .acked => { r with eta := some ⟨minutes, now⟩ }
  | .runOut => { r with retryAt := none, eta := some ⟨minutes, now⟩, asks := 0 }
  | .none => r
  | .due => r

/-- R128: a record named by a ROVING-DEFER. -/
def SupplyRec.deferTo (r : SupplyRec) (minutes now : Nat) : SupplyRec :=
  let m := now + 60000 * (if minutes = 0 then 1 else minutes)
  match r.state with
  | .asked => { r with state := .deferred, retryAt := some m, eta := none, asks := 0 }
  | .acked => { r with state := .deferred, retryAt := some m, eta := none, asks := 0 }
  | .deferred => { r with state := .deferred, retryAt := some m, eta := none, asks := 0 }
  | .runOut => { r with retryAt := some m, eta := none, asks := 0 }
  | .none => r
  | .due => r

/-- The moment to which an acknowledged eta is kept: eta plus 10 minutes from its receipt (R127). -/
def Eta.keptUntil (e : Eta) : Nat := e.received + 60000 * (e.minutes + 10)

/-- The moments at which the kept etas run out (R127). -/
def State.etaMoments (s : State) : List Nat :=
  s.roving.recs.filterMap (fun r => r.eta.map Eta.keptUntil)

/-- A record whose eta runs out at the moment m. -/
def SupplyRec.etaEnds (r : SupplyRec) (m : Nat) : Bool := r.eta.map Eta.keptUntil == some m

/-- R134: RUN-OUT sections of these numbers are asked again at once, with ask count 1 and eta removed. -/
def State.askAgain (s : State) (creels : List Nat) : State :=
  let s1 := s.editSupplies (fun r =>
    if creels.contains r.creel then { r with asks := 1, eta := none, retryAt := some s.answerEnd } else r)
  s1.handAsks (sortBy askBefore (s1.suppliesAmong creels))

/-- R127: the etas that run out at the moment m: ACKED returns to DUE, RUN-OUT is asked again, before the batch (log 20). -/
def State.etaEnd (s : State) (m : Nat) : State :=
  let out := (s.roving.recs.filter (fun r => r.etaEnds m && r.state == .runOut)).map (fun r => r.creel)
  let lost := s.roving.recs.any (fun r => r.etaEnds m && r.state == .acked)
  let s1 := s.editSupplies (fun r =>
    if r.etaEnds m && r.state == .acked then { r with state := .due, eta := none } else r)
  let s2 := s1.askAgain out
  if lost then s2.startBatch else s2

/-- The moments at which a deferral ends, those of RUN-OUT sections included (R128, R134, log 21). -/
def State.deferralMoments (s : State) : List Nat :=
  (s.roving.recs.filter (fun r => r.state == .deferred || (r.state == .runOut && r.asks == 0))).filterMap
    (fun r => r.retryAt)

/-- R128: the deferrals that end at the moment m: DEFERRED returns to DUE; RUN-OUT is asked again by R134, before the batch
(log 20). -/
def State.deferralEnds (s : State) (m : Nat) : State :=
  let ends := fun (r : SupplyRec) => r.state == .deferred && r.retryAt == some m
  let falls := s.roving.recs.any ends
  let again := s.roving.recs.any (fun r => r.state == .runOut && r.asks == 0 && r.retryAt == some m)
  let s1 := s.editSupplies (fun r => if ends r then { r with state := .due, retryAt := none } else r)
  let s2 := if again then s1.answerWaitEnds m else s1
  if falls then s2.startBatch else s2

/-- R129: a fresh start of the rail; the asks for RUN-OUT sections before the batch (log 20). -/
def State.railRestarts (s : State) : State :=
  let out := (s.roving.recs.filter (fun r => r.state == .runOut)).map (fun r => r.creel)
  let s1 := s.editSupplies (fun r =>
    if r.state == .asked || r.state == .acked || r.state == .deferred then
      { r with state := .due, asks := 0, retryAt := none, eta := none }
    else r)
  let s2 := s1.askAgain out
  if s2.anyDue then s2.startBatch else s2

/-! ## Laying (R136) -/

/-- The laid length of a ROVING-LAID in metres (R136, R202). -/
def laidLengthOf (cfg : Settings) (metres : Nat) : Nat :=
  if metres = 0 then cfg.laidMetres else min 9000 (max 100 metres)

/-- R136: a record laid afresh. -/
def SupplyRec.laid (r : SupplyRec) (d : DCount) (metres : Nat) : SupplyRec :=
  { r with state := .none, laidMark := d, laidLength := 10 * metres, remaining := 10 * metres, time := none,
           asks := 0, retryAt := none, eta := none, breaks := [] }

/-- R136: a section is laid and its RUN-OUT spindles return to DOWN. -/
def State.laySection (s : State) (creel metres : Nat) : State :=
  match s.supply creel with
  | none => s
  | some _ =>
    (s.editSupply creel (fun r => r.laid s.drive.d (laidLengthOf s.cfg metres))).laySpindles creel

/-! ## Taking the rail's notices: from any other station they are ignored (R129) -/

def State.takeRovingAck (s : State) (src eta : Nat) (sections : List Nat) : State :=
  if src = s.cfg.railStation then
    s.editSupplies (fun r => if sections.contains r.creel then r.acked eta s.nowMs else r)
  else s

def State.takeRovingDefer (s : State) (src minutes : Nat) (sections : List Nat) : State :=
  if src = s.cfg.railStation then
    s.editSupplies (fun r => if sections.contains r.creel then r.deferTo minutes s.nowMs else r)
  else s

def State.takeRovingLaid (s : State) (src creel metres : Nat) : State :=
  if src = s.cfg.railStation then s.laySection creel metres else s

/-! ## The commands -/

/-- BATCH_TIMER (R123). -/
def execBatchTimer (t : Nat) (s : State) : Effect :=
  .next (s.whileActive t (fun s => if reached s.roving.batchDue s.nowMs then s.batchRunsOut else s))

/-- ROVING_ANSWER_WAIT (R125, R134): the earliest moment reached is taken. -/
def execRovingAnswerWait (t : Nat) (s : State) : Effect :=
  .next (s.whileActive t (fun s =>
    match earliestReached s.nowMs s.waitMoments with
    | some m => s.answerWaitEnds m
    | none => s))

/-- ROVING_ACK (R126), taken by the roving unit. -/
def execRovingAck (t : Nat) (src eta : Nat) (sections : List Nat) (s : State) : Effect :=
  .next (s.whileHanded t .roving (fun s => s.takeRovingAck src eta sections))

/-- ETA_EXPIRY (R127): the earliest moment reached is taken. -/
def execEtaExpiry (t : Nat) (s : State) : Effect :=
  .next (s.whileActive t (fun s =>
    match earliestReached s.nowMs s.etaMoments with
    | some m => s.etaEnd m
    | none => s))

/-- ROVING_DEFER (R128), taken by the roving unit. -/
def execRovingDefer (t : Nat) (src minutes : Nat) (sections : List Nat) (s : State) : Effect :=
  .next (s.whileHanded t .roving (fun s => s.takeRovingDefer src minutes sections))

/-- DEFERRAL_END (R128): the earliest moment reached is taken. -/
def execDeferralEnd (t : Nat) (s : State) : Effect :=
  .next (s.whileActive t (fun s =>
    match earliestReached s.nowMs s.deferralMoments with
    | some m => s.deferralEnds m
    | none => s))

/-- ROVING_LAID (R136), taken by the roving unit. -/
def execRovingLaid (t : Nat) (src creel metres : Nat) (s : State) : Effect :=
  .next (s.whileHanded t .roving (fun s => s.takeRovingLaid src creel metres))

end Sys2Proof.Machine
end

