-- ==== Sys2Proof/Machine/Carriages.lean ====
section
/-! DEFINITION. The dialogue with the piecing carriages: repeats and withdrawal, TAKE, DONE, the piecing timeout and the
verify window (R69 to R80), and the commands for them. -/

namespace Sys2Proof.Machine

/-! ## TAKE (R71, R72) -/

/-- R71: an OPEN call enters TAKEN with its carriage. -/
def State.acceptTake (s : State) (c : Call) (src : Nat) : State :=
  let taken := { c with state := .taken, carriage := some src, takenAt := some s.nowMs }
  let s1 := (s.editCall c.number (fun _ => taken)).editSpindle c.spindle (fun r => r.enter .taken)
  s1.hand (s1.assignNotice src taken)

/-- TAKE (R71). -/
def State.takeTake (s : State) (src number spindle : Nat) : State :=
  match s.liveCall number with
  | none => s.hand (s.closeNotice src number spindle .gone)
  | some c =>
    match c.state with
    | .opened => s.acceptTake c src
    | .taken =>
      if c.carriage = some src then s.hand (s.assignNotice src c)
      else s.hand (s.closeNotice src number c.spindle .takenElsewhere)
    | .verify =>
      if c.carriage = some src then s.hand (s.assignNotice src c)
      else s.hand (s.closeNotice src number c.spindle .takenElsewhere)

/-! ## DONE (R73 to R76) -/

/-- The `failed` count of a spindle's side rises by one (R75, R80). -/
def State.countFailed (s : State) (n : Nat) : State :=
  s.tallySide (s.sideOf n) (fun c => { c with failed := raise 255 1 c.failed })

/-- The `lapsed` count of a spindle's side rises by one (R79). -/
def State.countLapsed (s : State) (n : Nat) : State :=
  s.tallySide (s.sideOf n) (fun c => { c with lapsed := raise 255 1 c.lapsed })

/-- R74: a success for a call in TAKEN moves it to VERIFY. -/
def State.beginVerify (s : State) (c : Call) : State :=
  s.editCall c.number (fun c => { c with state := .verify, verifyUntil := some (s.nowMs + s.pieces.verifyInUse) })

/-- R75: a failure from the holding carriage ends the call with a failed attempt; NO-ROVING is told to the roving unit;
one walk follows (R84). That NO-ROVING is told before the walk, so that a section it makes RUN-OUT calls no spindle in
it, is the model's choice: R75 and R84 do not order the two (DEDUCED, log 40). -/
def State.doneFailed (s : State) (c : Call) (noRoving : Bool) : State :=
  let s1 := ((s.endCall .noted c).countFailed c.spindle).failedAttempt c.spindle
  let s2 := if noRoving then s1.recordBreak (s1.sectionOf c.spindle) else s1
  s2.walk

/-- DONE (R73 to R76): result 1 is a success, any other a failure; reason 1 is NO-ROVING (R202). -/
def State.takeDone (s : State) (src number spindle result reason : Nat) : State :=
  match s.liveCall number with
  | none => s.hand (s.closeNotice src number spindle .gone)
  | some c =>
    match c.state with
    | .opened => s.hand (s.closeNotice src number spindle .gone)
    | .taken =>
      if c.carriage = some src then
        (if result = 1 then s.beginVerify c else s.doneFailed c (reason == 1))
      else s.hand (s.closeNotice src number c.spindle .takenElsewhere)
    | .verify =>
      if c.carriage = some src then (if result = 1 then s else s.doneFailed c (reason == 1))
      else s.hand (s.closeNotice src number c.spindle .takenElsewhere)

/-! ## The dispatcher's own timers (R69, R79, R80) -/

/-- R69: a due repeat of an OPEN call. -/
def State.repeatCall (s : State) (c : Call) : State :=
  let again := { c with repeats := c.repeats + 1 }
  let s1 := s.editCall c.number (fun _ => again)
  s1.hand (s1.callNotice again)

/-- R69: an OPEN call is withdrawn untaken; one walk follows (R84). -/
def State.withdrawCall (s : State) (c : Call) : State :=
  let s1 := (s.endCall .gone c).tallySide (s.sideOf c.spindle) (fun k => { k with untaken := raise 255 1 k.untaken })
  (s1.releaseSpindle c.spindle (some (s.second + s.cfg.recallDelay))).walk

/-- R79: the piecing timeout of a TAKEN call; one walk follows (R84). -/
def State.lapseCall (s : State) (c : Call) : State :=
  (((s.endCall .lapsed c).countLapsed c.spindle).failedAttempt c.spindle).walk

/-- R80: the verify window of a call closes; one walk follows (R84). -/
def State.verifyFails (s : State) (c : Call) : State :=
  (((s.endCall .noted c).countFailed c.spindle).failedAttempt c.spindle).walk

/-- The moment of an OPEN call's next repeat: opened-at plus k repeat intervals (R69). -/
def State.repeatAt (s : State) (c : Call) (k : Nat) : Nat := c.openedAt + 1000 * (k * s.cfg.repeatInterval)

/-! ## The commands -/

/-- CALL_REPEAT (R69). -/
def execCallRepeat (t : Nat) (call : Nat) (s : State) : Effect :=
  .next (s.whileActive t (fun s =>
    match s.liveCall call with
    | some c =>
      if c.state == .opened && c.repeats < 4 && s.repeatAt c (c.repeats + 1) ≤ s.nowMs then s.repeatCall c else s
    | none => s))

/-- WITHDRAWN_UNTAKEN (R69). -/
def execWithdrawnUntaken (t : Nat) (call : Nat) (s : State) : Effect :=
  .next (s.whileActive t (fun s =>
    match s.liveCall call with
    | some c => if c.state == .opened && s.repeatAt c 5 ≤ s.nowMs then s.withdrawCall c else s
    | none => s))

/-- TAKE (R71), taken by the dispatcher. -/
def execTake (t : Nat) (src call spindle : Nat) (s : State) : Effect :=
  .next (s.whileHanded t .dispatcher (fun s => s.takeTake src call spindle))

/-- DONE (R73), taken by the dispatcher. -/
def execDone (t : Nat) (src call spindle result reason : Nat) (s : State) : Effect :=
  .next (s.whileHanded t .dispatcher (fun s => s.takeDone src call spindle result reason))

/-- PIECING_TIMEOUT (R79). -/
def execPiecingTimeout (t : Nat) (call : Nat) (s : State) : Effect :=
  .next (s.whileActive t (fun s =>
    match s.liveCall call with
    | some c =>
      if c.state == .taken && reached (c.takenAt.map (fun m => m + 1000 * s.cfg.piecingTimeout)) s.nowMs then
        s.lapseCall c
      else s
    | none => s))

/-- VERIFY_WINDOW_CLOSES (R80). -/
def execVerifyWindowCloses (t : Nat) (call : Nat) (s : State) : Effect :=
  .next (s.whileActive t (fun s =>
    match s.liveCall call with
    | some c => if c.state == .verify && reached c.verifyUntil s.nowMs then s.verifyFails c else s
    | none => s))

end Sys2Proof.Machine
end

