-- ==== Sys2Proof/Machine/Drive.lean ====
section
/-! DEFINITION. The delivery and drive unit: delivery, fill, rate, forecasts, profile, trim, clamp, ramp, duty and the
PWM register (R41 to R59), and the commands that bear on it alone. -/

namespace Sys2Proof.Machine

/-! ## Delivery and fill (R41, R46, R47) -/

/-- One decimetre's worth of the pulse remainder (R41). -/
def Settings.threshold (c : Settings) : Nat := c.pulses * 10000

/-- Dcop, modulo 2^32 (R46). -/
def DriveUnit.cop (u : DriveUnit) : Nat := (u.d - u.copMark).toNat

/-- The cop target in decimetres (R47). -/
def Settings.copTarget (c : Settings) : Nat := 10 * c.copLength

/-- Fill computed from Dcop and L (R47). -/
def DriveUnit.fillNow (u : DriveUnit) (c : Settings) : Nat := min 1000 (1000 * u.cop / c.copTarget)

/-- Fill at a change of D: 1000 while the latch is set; the latch is set when fill reaches 1000 (R47). -/
def DriveUnit.refill (u : DriveUnit) (c : Settings) : DriveUnit :=
  let fill := if u.fullLatch then 1000 else u.fillNow c
  { u with fill := fill, fullLatch := u.fullLatch || fill == 1000 }

/-- One decimetre is added to D, which wraps, and fill is computed (R41, R47). -/
def DriveUnit.advance (u : DriveUnit) (c : Settings) : DriveUnit := { u with d := u.d + 1 }.refill c

/-! ## Rate (R44, R45) -/

/-- The ring of six buckets after one is written, the oldest replaced (R44). -/
def pushBucket (buckets : List Nat) (delivery : Nat) : List Nat :=
  (buckets ++ [delivery]).drop (buckets.length + 1 - 6)

/-- The rate of the filled buckets (R45). -/
def rateOf (buckets : List Nat) : Option Nat :=
  if buckets.length = 0 || buckets.sum = 0 then none else some (buckets.sum * 6 / buckets.length)

/-- R44, R45: the bucket, the tick-mark, the bucket-eligible mark and the rate at an update tick. -/
def DriveUnit.tickRate (u : DriveUnit) : DriveUnit :=
  let buckets := if u.eligible then pushBucket u.buckets (u.d - u.tickMark).toNat else u.buckets
  { u with buckets := buckets, tickMark := u.d, eligible := u.turning, rate := rateOf buckets }

/-! ## Forecasts (R48, R49) -/

/-- The remaining yarn in decimetres (R48). -/
def DriveUnit.remainingYarn (u : DriveUnit) (c : Settings) : Nat := c.copTarget - u.cop

/-- The measured forecast (R48). -/
def DriveUnit.measuredNow (u : DriveUnit) (c : Settings) : Nat :=
  if u.fill = 1000 then 0
  else
    match u.rate with
    | none => 999
    | some v => min 998 (ceilDiv (u.remainingYarn c) v)

/-- The natural forecast, with the trim in force (R49). -/
def DriveUnit.naturalNow (u : DriveUnit) (c : Settings) (trim : Nat) : Nat :=
  if u.fill = 1000 then 0
  else
    match u.rate with
    | none => 999
    | some v => min 998 (ceilDiv (u.remainingYarn c * (1000 - trim)) (1000 * v))

/-- Both forecasts are computed, the natural one with the trim of the previous tick (R48, R49). -/
def DriveUnit.forecasts (u : DriveUnit) (c : Settings) : DriveUnit :=
  { u with measured := u.measuredNow c, natural := u.naturalNow c u.trimGiven }

/-- R46, R49: the cop mark is set at a completed doff, after which the trim of the natural forecast is 0, for the computation
that the doff itself makes too (log 31). -/
def DriveUnit.beginCop (u : DriveUnit) (c : Settings) : DriveUnit :=
  ({ u with copMark := u.d, fullLatch := false, fill := 0, trimGiven := 0 } : DriveUnit).forecasts c

/-! ## Profile, trim, clamp and ramp (R51 to R54) -/

/-- The speed between two profile points, the floor toward minus infinity (R51). -/
def between (p q : ProfilePoint) (fill : Nat) : Nat :=
  ((p.speed : Int) + ((q.speed : Int) - p.speed) * ((fill : Int) - p.fill) / ((q.fill : Int) - p.fill)).toNat

/-- The profile speed: the last point at or below the fill, and the line to the next (R51). -/
def profileSpeed (fill : Nat) : List ProfilePoint → Nat
  | [] => 0
  | [p] => p.speed
  | p :: q :: rest => if q.fill ≤ fill then profileSpeed fill (q :: rest) else between p q fill

/-- The trimmed speed (R52). -/
def trimmedSpeed (speed trim : Nat) : Nat := speed * (1000 - trim) / 1000

/-- The target speed: the clamp after the trim (R53). -/
def targetSpeed (c : Settings) (fill trim : Nat) : Nat :=
  min c.sMax (max c.sMin (trimmedSpeed (profileSpeed fill c.profile) trim))

/-- The ramp: the reference moves by at most the ramp step (R54). -/
def ramp (previous target rampStep : Nat) : Nat :=
  if previous + rampStep < target then previous + rampStep
  else if target + rampStep < previous then previous - rampStep
  else target

/-! ## Duty (R57, R59) -/

/-- The duty for a speed reference (R57). -/
def dutyOf (c : Settings) (speed : Nat) : Nat := min 1023 ((1024 * speed + c.sFull / 2) / c.sFull)

/-- The duty written in a frame mode (R59). -/
def dutyIn (c : Settings) (m : FrameMode) (speed : Nat) : Nat := if driveOn m then dutyOf c speed else 0

/-- The speed update of R51 to R54 from a previous reference; the duty goes to the waiting stage (R55, R58). -/
def DriveUnit.updateSpeed (u : DriveUnit) (c : Settings) (trim previous : Nat) : DriveUnit :=
  let speed := ramp previous (targetSpeed c u.fill trim) c.rampStep
  { u with speed := speed, dutyWaiting := dutyOf c speed }

/-- The previous reference at an entry to RUNNING or RESTART: S_min from a standing mode (R54, R55). -/
def previousSpeed (c : Settings) (u : DriveUnit) (old : FrameMode) : Nat :=
  if old == .halted || old == .stopped || old == .doffing || old == .doffStall then c.sMin else u.speed

/-- R55, R59: the delivery and drive unit at a change of mode. -/
def DriveUnit.enterMode (u : DriveUnit) (c : Settings) (trim : Nat) (old new : FrameMode) : DriveUnit :=
  if calling new then u.updateSpeed c trim (previousSpeed c u old)
  else { u with dutyWaiting := dutyIn c new u.speed }

/-! ## The roller (R42) -/

/-- R42: the roller stops turning: buckets emptied, rate unknown, mark cleared. -/
def DriveUnit.stopTurning (u : DriveUnit) : DriveUnit :=
  { u with turning := false, buckets := [], rate := none, eligible := false }

/-- R42: a pulse arrives: it restarts the 500 ms wait, and the chain engine is told of the roller's beginning. -/
def State.rollerPulse (s : State) : State :=
  let s1 := s.withDrive { s.drive with turning := true, lastPulse := s.clock }
  if s.drive.turning then s1 else s1.withChain { s.chain with rollerBegan := some s.nowMs }

/-- The pulse remainder after a pulse (R41). -/
def State.takeRemainder (s : State) : State :=
  s.withDrive { s.drive with remainder := (s.drive.remainder + s.cfg.circumference) % s.cfg.threshold }

/-- The whole decimetres a pulse adds to D (R41). -/
def State.pulseDecimetres (s : State) : Nat := (s.drive.remainder + s.cfg.circumference) / s.cfg.threshold

/-! ## The commands -/

/-- ROLLER_STOPS_TURNING (R42): 500 ms have passed with no pulse. -/
def execRollerStopsTurning (t : Nat) (s : State) : Effect :=
  .next (s.whileListening t (fun s =>
    if s.drive.turning && s.drive.lastPulse + Config.rollerWait ≤ s.clock then s.withDrive s.drive.stopTurning else s))

/-- The PWM periods run whenever the part is supplied, out of reset and not in configuration fault (R58, R196). -/
def State.pwmRuns (s : State) : Bool := s.clockRuns && s.start.phase != .configFault

/-- PWM_PERIOD_START (R58): the running stage takes the waiting stage's value. -/
def execPwmPeriodStart (t : Nat) (s : State) : Effect :=
  let s1 := s.reach t
  .next (if s1.pwmRuns && s1.drive.pwmNext ≤ s1.clock then
      s1.withDrive { s1.drive with dutyRunning := s1.drive.dutyWaiting,
                                   pwmNext := s1.drive.pwmNext + Config.pwmPeriod }
    else s1)

end Sys2Proof.Machine
end

