-- ==== Sys2Proof/Machine/Frame.lean ====
section
/-! DEFINITION. The frame and doff unit: mode changes, the FORECAST, the claim, the trim, doff completion (R90 to R111),
and its commands. -/

namespace Sys2Proof.Machine

/-! ## The forecast broadcast (R103) -/

/-- FORECAST, broadcast (R103, R202). -/
def State.forecastNotice (s : State) : Notice :=
  s.notice .forecast 255 0
    (byteField s.start.strap ++ byteField s.cfg.dofferGroup ++ byteField (modeCode s.frame.mode) ++
      wordField s.drive.measured ++ wordField s.drive.fill)

/-- A FORECAST is built and handed; the forecast interval starts again (R103). It carries the measured forecast as it was
last computed (R48), also at the entry to FULL-STOP (DEDUCED against the worked stagger, log 32). -/
def State.buildForecast (s : State) : State :=
  (s.withFrame { s.frame with lastForecast := some s.drive.measured,
                              forecastDue := some (s.clock + 60000000 * s.cfg.forecastInterval) }).hand s.forecastNotice

/-- The measured forecast differs by 2 minutes or more from the one last built, or is known where that was not, or the
other way about (R103). -/
def State.forecastMoved (s : State) : Bool :=
  match s.frame.lastForecast with
  | none => true
  | some f =>
    f + 2 ≤ s.drive.measured || s.drive.measured + 2 ≤ f || (f != s.drive.measured && (f == 999 || s.drive.measured == 999))

/-- The FORECAST that a computation of the measured forecast causes (R103). -/
def State.forecastIfMoved (s : State) : State := if s.forecastMoved then s.buildForecast else s

/-! ## The claim (R108, R109) -/

/-- The codes of the last answer (R202). -/
def ClaimAnswer.bytes : ClaimAnswer → List Byte
  | .none => byteField 0 ++ byteField 0
  | .position n => byteField 1 ++ byteField n
  | .eta n => byteField 2 ++ byteField n

/-- DOFF-CLAIM to the configured doffer (R109, R202). -/
def State.claimNotice (s : State) : Notice :=
  s.notice .doffClaim s.cfg.dofferStation 0
    (byteField s.start.strap ++ byteField s.cfg.dofferGroup ++ byteField (modeCode s.frame.mode) ++
      wordField s.drive.fill ++ wordField s.drive.measured ++ s.frame.claim.lastAnswer.bytes)

/-- A claim is made with a last answer: CLAIMED, retry count 1, trim 0, the answer wait, DOFF-CLAIM (R108). -/
def State.makeClaim (s : State) (answer : ClaimAnswer) : State :=
  let s1 := s.withFrame
    { s.frame with
      claim := { state := .claimed, position := none, eta := none, lastAnswer := answer, retries := 1,
                 answerDue := some (s.clock + Config.claimWait), pause := none },
      trim := 0 }
  s1.hand s1.claimNotice

/-- The claim pause lies ahead (R108). -/
def State.pauseAhead (s : State) : Bool :=
  match s.frame.claim.pause with
  | some m => s.nowMs < m
  | none => false

/-- The record is NONE and no claim pause lies ahead (R108). -/
def State.mayClaim (s : State) : Bool := s.frame.claim.state == .none && !s.pauseAhead

/-- Either condition of a claim in RUNNING or RESTART (R108). -/
def State.claimNear (s : State) : Bool := s.cfg.claimFill ≤ s.drive.fill || s.drive.measured ≤ s.cfg.dofferLead

/-- The claim of an update tick or of the end of the claim pause (R108). -/
def State.claimAtTick (s : State) : State :=
  if s.mayClaim && ((calling s.frame.mode && s.claimNear) || s.frame.mode == .fullWait) then s.makeClaim .none else s

/-- R111: the claim record is ended. -/
def State.endClaim (s : State) : State := s.withFrame { s.frame with claim := Claim.idle }

/-! ## Changes of mode (R92) -/

/-- R92: the frame leaves RUNNING or RESTART for another mode: trim 0, every live call ends (R81). -/
def State.leaveCalling (s : State) (new : FrameMode) : State :=
  if calling s.frame.mode && !calling new then (s.withFrame { s.frame with trim := 0 }).cancelAll else s

/-- The mode and its reason; each of the three timers runs only in the mode that owns it (R92). -/
def State.placeMode (s : State) (new : FrameMode) (reason : Option StopReason) : State :=
  s.withFrame { s.frame with mode := new, reason := reason, graceDue := none, positionDue := none, doffingDue := none }

/-- R95: the entry to FULL-STOP: the position timeout, a claim if none stands, and the passage to FULL-WAIT when the
ring rail is already at the doff position. -/
def State.enterFullStop (s : State) : State :=
  let s1 := s.withFrame { s.frame with positionDue := some (s.clock + 1000000 * s.cfg.positionTimeout) }
  let s2 := if s1.frame.claim.state = .none then s1.makeClaim .none else s1
  if s2.pins.atDoff then s2.placeMode .fullWait none else s2

/-- The entry actions of a mode (R94, R95, R98). -/
def State.entryActions (s : State) : FrameMode → State
  | .restart => s.withFrame { s.frame with graceDue := some (s.clock + 1000000 * s.cfg.restartGrace) }
  | .fullStop => s.enterFullStop
  | .doffing => s.withFrame { s.frame with doffingDue := some (s.clock + 60000000 * s.cfg.doffingTimeout) }
  | .halted => s
  | .running => s
  | .fullWait => s
  | .doffStall => s
  | .stopped => s

/-- R92: the new mode is reported to the delivery and drive unit (R55, R59). -/
def State.reportMode (s : State) (old : FrameMode) : State :=
  s.withDrive (s.drive.enterMode s.cfg s.frame.trim old s.frame.mode)

/-- R92: one change of mode, with its reports and its FORECAST made once, for the mode the frame ends in. R92 does not
place the entry actions: they follow the leaving and stand before the mode report and the FORECAST (log 38). -/
def State.changeMode (s : State) (new : FrameMode) (reason : Option StopReason) : State :=
  ((((s.leaveCalling new).placeMode new reason).entryActions new).reportMode s.frame.mode).buildForecast

/-- R93, R97: the frame starts: RUNNING below fill 1000, FULL-STOP at fill 1000. -/
def State.startFrame (s : State) : State :=
  s.changeMode (if s.drive.fill < 1000 then .running else .fullStop) none

/-- R94, R96 to R98: a fall of run permit or a press of the stop button. -/
def State.operatorStop (s : State) : State :=
  if calling s.frame.mode || s.frame.mode == .fullStop then s.changeMode .stopped (some .operator)
  else if doffRound s.frame.mode then s.withFrame { s.frame with permitDropped := true }
  else s

/-- R94, R96, R97: the drive fault input becomes asserted. -/
def State.driveFaulted (s : State) : State :=
  if driveOn s.frame.mode then s.changeMode .stopped (some .drive)
  else if s.frame.mode = .stopped then s.withFrame { s.frame with reason := some .drive }
  else s

/-- R93, R97: a rise of run permit. -/
def State.permitRise (s : State) : State :=
  if s.frame.mode = .halted then (if s.pins.driveFault then s else s.startFrame)
  else if s.frame.mode = .stopped then
    (if s.pins.driveFault then s.withFrame { s.frame with reason := some .drive } else s.startFrame)
  else s

/-! ## Reports of fill (R47, R94, R102, R108) -/

/-- Fill reaches the claim fill (R108). -/
def State.claimFillReached (s : State) : State :=
  if s.mayClaim && calling s.frame.mode then s.makeClaim .none else s

/-- Fill reaches 1000 (R94, R102). -/
def State.fullReached (s : State) : State :=
  let s1 := s.withFrame { s.frame with fullAt := some (s.frame.fullAt.getD s.second) }
  if calling s1.frame.mode then s1.changeMode .fullStop none else s1

/-- One change of D, with the reports it makes, the claim fill first (R41, R47). -/
def State.addDecimetre (s : State) : State :=
  let s1 := s.withDrive (s.drive.advance s.cfg)
  let s2 :=
    if s.drive.fill < s.cfg.claimFill && s.cfg.claimFill ≤ s1.drive.fill then s1.claimFillReached else s1
  if s.drive.fill < 1000 && s1.drive.fill == 1000 then s2.fullReached else s2

/-- Several changes of D, one after another (R41). -/
def State.addDecimetres (s : State) : Nat → State
  | 0 => s
  | n + 1 => s.addDecimetre.addDecimetres n

/-! ## Doff completion (R100) -/

/-- The doffer-wait minutes of a completed doff (R100). -/
def State.dofferWait (s : State) : Nat :=
  match s.frame.fullAt with
  | none => 0
  | some f => (s.frame.doffStartAt.getD s.second - f) / 60

/-- The mode a completed doff sets, with its reason (R100). -/
def State.modeAfterDoff (s : State) : FrameMode × Option StopReason :=
  if s.pins.driveFault then (.stopped, some .drive)
  else if !s.pins.runPermit || s.frame.permitDropped then (.stopped, some .operator)
  else (.restart, none)

/-- R100: the cop mark, the spindle records, the counts, the claim and the marks of a completed doff. -/
def State.doffRecords (s : State) : State :=
  let s1 := (s.withDrive (s.drive.beginCop s.cfg)).rebuildSpindles
  let s2 := s1.tallyFrame (fun c =>
    { c with doffs := raise 255 1 c.doffs, dofferWait := raise 65535 s.dofferWait c.dofferWait })
  s2.withFrame { s2.frame with claim := Claim.idle, doffingDue := none, fullAt := none, doffStartAt := none,
                               permitDropped := false }

/-- R100: a doff is completed in one event; in HALTED the frame stays in HALTED. -/
def State.completeDoff (s : State) : State :=
  if s.frame.mode = .halted then s.doffRecords.forecastIfMoved
  else s.doffRecords.changeMode s.modeAfterDoff.1 s.modeAfterDoff.2

/-! ## The doffer's notices (R98 to R101, R110) -/

/-- DOFF-REFUSE to the doffer, reason NOT-READY (R101, R202). -/
def State.refuseNotice (s : State) : Notice :=
  s.notice .doffRefuse s.cfg.dofferStation 0 (byteField 1 ++ byteField (modeCode s.frame.mode))

/-- DOFF-START (R98, R101). -/
def State.takeDoffStart (s : State) (src : Nat) : State :=
  if src = s.cfg.dofferStation then
    if s.frame.mode = .fullWait then
      ((s.withFrame { s.frame with doffStartAt := some (s.frame.doffStartAt.getD s.second) }).endClaim).changeMode
        .doffing none
    else s.hand s.refuseNotice
  else s

/-- DOFF-END (R93, R99, R101). -/
def State.takeDoffEnd (s : State) (src : Nat) : State :=
  if src = s.cfg.dofferStation &&
      (s.frame.mode == .doffing || s.frame.mode == .doffStall || (s.frame.mode == .halted && s.drive.fill == 1000)) then
    s.completeDoff
  else s

/-- DOFF-ABORT (R99, R101): back to FULL-WAIT, with a claim made at once. -/
def State.takeDoffAbort (s : State) (src : Nat) : State :=
  if src = s.cfg.dofferStation && (s.frame.mode == .doffing || s.frame.mode == .doffStall) then
    (s.changeMode .fullWait none).makeClaim .none
  else s

/-- DOFF-QUEUED and DOFF-GRANT: an answer to a standing claim (R110). -/
def State.takeAnswer (s : State) (src : Nat) (state : ClaimState) (position eta : Option Nat)
    (answer : ClaimAnswer) : State :=
  if src = s.cfg.dofferStation && s.frame.claim.state != .none then
    s.withFrame { s.frame with claim := { state := state, position := position, eta := eta, lastAnswer := answer,
                                          retries := 0, answerDue := none, pause := none } }
  else s

/-- The queue position a DOFF-QUEUED is taken to carry (R110). -/
def queuePosition (n : Nat) : Nat := if n = 0 || 15 < n then 15 else n

/-- DOFF-QUEUED (R110). -/
def State.takeDoffQueued (s : State) (src position : Nat) : State :=
  s.takeAnswer src .queued (some (queuePosition position)) none (.position (queuePosition position))

/-- DOFF-GRANT (R110). -/
def State.takeDoffGrant (s : State) (src eta : Nat) : State :=
  s.takeAnswer src .granted none (some eta) (.eta eta)

/-- R111: a fresh start of the doffer: a standing claim is made again, the last answer kept. -/
def State.dofferRestarts (s : State) : State :=
  if s.frame.claim.state = .none then s else s.makeClaim s.frame.claim.lastAnswer

/-- R109: the answer wait runs out: the claim is sent again, or the doffer is silent. -/
def State.claimUnanswered (s : State) : State :=
  if s.frame.claim.retries < 5 then
    let s1 := s.withFrame { s.frame with claim :=
      { s.frame.claim with retries := s.frame.claim.retries + 1, answerDue := some (s.clock + Config.claimWait) } }
    s1.hand s1.claimNotice
  else
    (s.withFrame { s.frame with claim := { Claim.idle with pause := some (s.nowMs + Config.claimPauseMs) } }).tallyFrame
      (fun c => { c with dofferSilent := raise 255 1 c.dofferSilent })

/-! ## The doff outlook and the trim (R105, R106) -/

/-- A peer's present forecast p_m, absent for an entry that is left out of the outlook (R105). -/
def State.outlookOf (s : State) (p : Peer) : Option Nat :=
  match p.forecast with
  | none => none
  | some f =>
    if p.kind == .frame && p.group == some s.cfg.dofferGroup &&
        s.nowMs ≤ f.received + 180000 * s.cfg.forecastInterval && f.minutes != 999 then
      some (if doffStanding f.mode then 0 else f.minutes - (s.nowMs - f.received) / 60000)
    else none

/-- The frame yields to a peer of this station and present forecast, with natural forecast t (R106). -/
def yields (slotWidth strap t station p : Nat) : Bool :=
  t < p + slotWidth && p < t + slotWidth && (p < t || (p == t && station < strap))

/-- The present forecasts of the peers the frame yields to (R106). -/
def State.yieldedTo (s : State) (t : Nat) : List Nat :=
  s.line.peers.filterMap (fun p =>
    match s.outlookOf p with
    | some m => if yields s.cfg.slotWidth s.start.strap t p.station m then some m else none
    | none => none)

/-- The trim for a natural forecast and the forecasts of the peers yielded to (R106). -/
def trimFor (c : Settings) (t : Nat) (peers : List Nat) : Nat :=
  if peers.isEmpty then 0
  else min c.maxTrim (1000 - 1000 * t / (peers.foldl max 0 + c.slotWidth))

/-- The trim formed at an update tick (R106). -/
def State.trimNow (s : State) : Nat :=
  if calling s.frame.mode && s.frame.claim.state == .none && s.drive.natural != 999 then
    trimFor s.cfg s.drive.natural (s.yieldedTo s.drive.natural)
  else 0

/-! ## The commands -/

/-- FRONT_ROLLER_PULSE (R41, R42): counted from the listening period on (R195); the high and the low between two pulses
last 20 µs each (R204), so an edge sooner than 40 µs after the last pulse is no pulse (log 23). -/
def execFrontRollerPulse (t : Nat) (s : State) : Effect :=
  .next (s.whileListening t (fun s =>
    if s.drive.lastPulse + Config.pulseSpacing ≤ s.clock then
      (s.rollerPulse.takeRemainder).addDecimetres s.pulseDecimetres
    else s))

/-- RUN_PERMIT_RISE (R93, R97, R98): a change from low to high. -/
def execRunPermitRise (t : Nat) (s : State) : Effect := .next (s.onChange t .runPermit true State.permitRise)

/-- RUN_PERMIT_FALL (R94, R96 to R98): a change from high to low. -/
def execRunPermitFall (t : Nat) (s : State) : Effect := .next (s.onChange t .runPermit false State.operatorStop)

/-- STOP_BUTTON (R94): a press, a change from released to pressed, acts as a fall of run permit. -/
def execStopButton (t : Nat) (s : State) : Effect := .next (s.onChange t .stop true State.operatorStop)

/-- DRIVE_FAULT (R94, R96, R97): the drive fault input becomes asserted. -/
def execDriveFault (t : Nat) (s : State) : Effect := .next (s.onChange t .driveFault true State.driveFaulted)

/-- R96: the ring rail has come to the doff position. -/
def State.railArrives (s : State) : State :=
  if s.frame.mode == .fullStop then s.changeMode .fullWait none else s

/-- AT_DOFF_POSITION (R96): the input becomes asserted. -/
def execAtDoffPosition (t : Nat) (s : State) : Effect := .next (s.onChange t .atDoff true State.railArrives)

/-- R99: a press of the doff-done button completes the doff in DOFFING or DOFF-STALL. -/
def State.doffDonePressed (s : State) : State :=
  if s.frame.mode == .doffing || s.frame.mode == .doffStall then s.completeDoff else s

/-- DOFF_DONE_BUTTON (R99). -/
def execDoffDoneButton (t : Nat) (s : State) : Effect := .next (s.onChange t .doffDone true State.doffDonePressed)

/-- RESTART_GRACE (R94): RESTART goes to RUNNING. -/
def execRestartGrace (t : Nat) (s : State) : Effect :=
  .next (s.whileActive t (fun s =>
    if s.frame.mode == .restart && reached s.frame.graceDue s.clock then s.changeMode .running none else s))

/-- POSITION_TIMEOUT (R96): FULL-STOP goes to STOPPED with reason POSITION. -/
def execPositionTimeout (t : Nat) (s : State) : Effect :=
  .next (s.whileActive t (fun s =>
    if s.frame.mode == .fullStop && reached s.frame.positionDue s.clock then
      s.changeMode .stopped (some .position)
    else s))

/-- DOFFING_TIMEOUT (R99): DOFFING goes to DOFF-STALL. -/
def execDoffingTimeout (t : Nat) (s : State) : Effect :=
  .next (s.whileActive t (fun s =>
    if s.frame.mode == .doffing && reached s.frame.doffingDue s.clock then s.changeMode .doffStall none else s))

/-- DOFF_START (R98, R101), taken by the frame and doff unit. -/
def execDoffStart (t : Nat) (src : Nat) (s : State) : Effect :=
  .next (s.whileHanded t .frameDoff (fun s => s.takeDoffStart src))

/-- DOFF_END (R93, R99, R101), taken by the frame and doff unit. -/
def execDoffEnd (t : Nat) (src : Nat) (s : State) : Effect :=
  .next (s.whileHanded t .frameDoff (fun s => s.takeDoffEnd src))

/-- DOFF_ABORT (R99, R101), taken by the frame and doff unit. -/
def execDoffAbort (t : Nat) (src : Nat) (s : State) : Effect :=
  .next (s.whileHanded t .frameDoff (fun s => s.takeDoffAbort src))

/-- DOFF_QUEUED (R110), taken by the frame and doff unit. -/
def execDoffQueued (t : Nat) (src position : Nat) (s : State) : Effect :=
  .next (s.whileHanded t .frameDoff (fun s => s.takeDoffQueued src position))

/-- DOFF_GRANT (R110), taken by the frame and doff unit. -/
def execDoffGrant (t : Nat) (src eta : Nat) (s : State) : Effect :=
  .next (s.whileHanded t .frameDoff (fun s => s.takeDoffGrant src eta))

/-- FORECAST_INTERVAL (R103): the interval runs out and a FORECAST is built. -/
def execForecastInterval (t : Nat) (s : State) : Effect :=
  .next (s.whileActive t (fun s => if reached s.frame.forecastDue s.clock then s.buildForecast else s))

/-- CLAIM_ANSWER_WAIT (R109). -/
def execClaimAnswerWait (t : Nat) (s : State) : Effect :=
  .next (s.whileActive t (fun s =>
    if s.frame.claim.state == .claimed && reached s.frame.claim.answerDue s.clock then s.claimUnanswered else s))

/-- CLAIM_PAUSE (R108): the pause runs out, and a claim is made if its conditions hold. -/
def execClaimPause (t : Nat) (s : State) : Effect :=
  .next (s.whileActive t (fun s =>
    if reached s.frame.claim.pause s.nowMs then
      (s.withFrame { s.frame with claim := { s.frame.claim with pause := none } }).claimAtTick
    else s))

/-- DRIVE_FAULT_CLEARS (R90): later rules read the level as clear. -/
def execDriveFaultClears (t : Nat) (s : State) : Effect := .next (s.onChange t .driveFault false id)

/-- AT_DOFF_POSITION_CLEARS (R90): the level read at entry to FULL-STOP is clear. -/
def execAtDoffPositionClears (t : Nat) (s : State) : Effect := .next (s.onChange t .atDoff false id)

/-- The input of a button. -/
def buttonInput : Button → Input
  | .stop => .stop
  | .doffDone => .doffDone
  | .clearA => .clearA
  | .clearB => .clearB

/-- BUTTON_RELEASE (R204): a later press is a change from released to pressed. -/
def execButtonRelease (t : Nat) (button : Button) (s : State) : Effect :=
  .next (s.onChange t (buttonInput button) false id)

end Sys2Proof.Machine
end

