-- ==== Sys2Proof/Machine/Tally.lean ====
section
/-! DEFINITION. The tally unit: side values, the close of a shift, the ring, queries and their answers (R141 to R161),
and its commands. -/

namespace Sys2Proof.Machine

/-! ## Side values (R144 to R148) -/

/-- What the spindle table hands of one spindle: its number, state, held-from, shift breaks and shift length (R38). -/
structure SpindleShare where
  spindle : Nat
  locked : Bool
  breaks : Nat
  length : Nat
deriving DecidableEq, Repr

/-- LOCKED, or HELD from LOCKED (R148). -/
def SpindleRec.standsLocked (r : SpindleRec) : Bool :=
  r.state == .locked || (r.state == .held && r.heldFrom == some .locked)

/-- The live shift length of a record: its close-off without any change (R38). -/
def SpindleRec.liveLength (r : SpindleRec) (d : DCount) : Nat := (r.closeOff d).length

/-- The spindles of a side with their live shares, in ascending number (R38). -/
def State.shares (s : State) (side : Side) : List SpindleShare :=
  (s.spindlesOf side).filterMap (fun n =>
    (s.spindle n).map (fun r => ⟨n, r.standsLocked, r.breaks, r.liveLength s.drive.d⟩))

/-- The live held-delivery sum of a side (R38). -/
def State.liveHeld (s : State) (side : Side) : Nat :=
  (s.spindlesOf side).foldl (fun acc n =>
    match s.spindle n with
    | some r => addHeld acc (r.heldDelivery s.drive.d)
    | none => acc) (s.heldSum side)

/-- Delivered: formed exactly and left at its maximum (R144). -/
def deliveredOf (shares : List SpindleShare) : Nat :=
  saturate 4294967295 ((shares.map (fun h => h.length)).sum)

/-- Available delivery: formed exactly, then held within 0..4,294,967,295 (R145). -/
def availableOf (spindles : Nat) (d dOpen : DCount) (held : Nat) : Nat :=
  saturate 4294967295 (spindles * (d - dOpen).toNat - held)

/-- Efficiency in thousandths (R145). -/
def efficiencyOf (delivered available : Nat) : Nat :=
  if available = 0 then 0 else min 1000 (1000 * delivered / available)

/-- Mass in grams (R146). -/
def massOf (delivered tex : Nat) : Nat := saturate 16777215 (delivered * tex / 1000000)

/-- More shift breaks first; among equals the lower spindle number (R147). -/
def rogueBefore (a b : Rogue) : Bool := b.breaks < a.breaks || (a.breaks == b.breaks && a.spindle ≤ b.spindle)

/-- The rogue list (R147). -/
def roguesOf (threshold : Nat) (shares : List SpindleShare) : List Rogue :=
  (sortBy rogueBefore ((shares.filter (fun h => threshold ≤ h.breaks)).map (fun h => ⟨h.spindle, h.breaks⟩))).take 4

/-- The values of a side for the open shift, at this moment (R144 to R148). -/
def State.sideValues (s : State) (side : Side) : SideValues :=
  let shares := s.shares side
  let delivered := deliveredOf shares
  let available := availableOf (s.sideSpindles side) s.drive.d s.tally.opened.dOpen (s.liveHeld side)
  { configured := 0 < s.sideSpindles side, delivered := delivered,
    efficiency := efficiencyOf delivered available, mass := massOf delivered s.cfg.tex,
    rogues := roguesOf s.cfg.rogueThreshold shares, lockedNow := shares.countP (fun h => h.locked) }

/-! ## Answers (R156 to R160, R202) -/

/-- The payload of TALLY part 1 (R158, R202). -/
def partOne (o : OpenShift) (closed : Bool) (minutesOpen : Nat) : List Byte :=
  byteField (64 + (if closed then 1 else 0)) ++ longField (o.stamp.getD 0) ++ wordField (saturate 65535 minutesOpen) ++
    byteField o.counts.doffs ++ wordField o.counts.dofferWait ++ wordField o.counts.doffStall ++
    wordField o.counts.stopped ++ wordField o.counts.runOutMinutes ++ wordField o.counts.blindMinutes ++
    byteField o.counts.dofferSilent ++ byteField o.counts.railSilent ++ wordField o.counts.collisions ++
    wordField o.counts.receiveErrors ++ wordField o.counts.lateScans ++ byteField o.counts.sendFailures ++
    byteField o.counts.inboundOverruns ++ byteField o.counts.routineDiscards

/-- The payload of TALLY part 2 or 3 for a side with sections (R159, R202). -/
def sideLayout (part : Nat) (c : SideCounts) (v : SideValues) : List Byte :=
  tripleField (part * 4194304 + v.efficiency * 4096 + v.lockedNow * 4) ++ longField v.delivered ++ tripleField v.mass ++
    wordField c.endsDown ++ byteField c.startUpBreaks ++ wordField c.pieced ++ byteField c.piecedByHand ++
    byteField c.failed ++ byteField c.lapsed ++ byteField c.untaken ++ byteField c.locked ++
    v.rogues.flatMap (fun r => wordField r.spindle ++ byteField r.breaks)

/-- The values of a side with no sections: all 0 and an empty rogue list (R159). -/
def SideValues.zero : SideValues :=
  { configured := false, delivered := 0, efficiency := 0, mass := 0, rogues := [], lockedNow := 0 }

/-- The payload of TALLY part 2 or 3; a side that had no sections when its values were formed is answered with every
value and count 0 (R155, R159, log 37). -/
def sidePart (part : Nat) (c : SideCounts) (v : SideValues) : List Byte :=
  if v.configured then sideLayout part c v else sideLayout part SideCounts.zero SideValues.zero

/-- The three TALLY notices of a record, in order of part (R158, R160). -/
def State.handTally (s : State) (dst : Nat) (o : OpenShift) (closed : Bool) (minutesOpen : Nat)
    (a b : SideValues) : State :=
  ((s.hand (s.notice .tally dst o.number (partOne o closed minutesOpen))).hand
      (s.notice .tally dst o.number (sidePart 2 o.sideA a))).hand
    (s.notice .tally dst o.number (sidePart 3 o.sideB b))

/-- TALLY for the open shift, with live values (R157). -/
def State.answerOpen (s : State) (dst : Nat) : State :=
  s.handTally dst s.tally.opened false (s.minute - s.tally.opened.openedAt) (s.sideValues .A) (s.sideValues .B)

/-- TALLY for a closed record, with its frozen values (R155). -/
def State.answerClosed (s : State) (dst : Nat) (c : ClosedShift) : State :=
  s.handTally dst c.shift true (c.closedAt - c.shift.openedAt) c.valuesA c.valuesB

/-- The ring record of a shift number (R156). -/
def State.ringRecord (s : State) (number : Nat) : Option ClosedShift :=
  s.tally.ring.find? (fun c => c.shift.number == number)

/-- TALLY-NONE for a number (R160). -/
def State.answerNone (s : State) (dst number : Nat) : State := s.hand (s.notice .tallyNone dst number [])

/-- TALLY-QUERY (R156). -/
def State.takeQuery (s : State) (src number : Nat) : State :=
  if number = 0 || number = s.tally.opened.number then s.answerOpen src
  else
    match s.ringRecord number with
    | some c => s.answerClosed src c
    | none => s.answerNone src number

/-! ## The close (R150 to R152) -/

/-- R37, R38: every record and both held-delivery sums after the close-off of a close. -/
def State.closeOffAll (s : State) : State :=
  s.withTable
    { s.table with
      recs := s.table.recs.map (fun r =>
        let r1 := r.closeOff s.drive.d
        { r1 with heldMark := r1.heldMark.map (fun _ => s.drive.d) })
      heldA := s.liveHeld .A
      heldB := s.liveHeld .B }

/-- R38: the shift fields of every spindle and both held-delivery sums return to 0. -/
def State.clearShares (s : State) : State :=
  s.withTable { s.table with recs := s.table.recs.map (fun r => { r with breaks := 0, length := 0 }),
                             heldA := 0, heldB := 0 }

/-- R151: the ring after a closed record is placed, the record of the opening number removed first. -/
def placeInRing (ring : List ClosedShift) (c : ClosedShift) (opening : Nat) : List ClosedShift :=
  let kept := ring.filter (fun r => r.shift.number != opening) ++ [c]
  kept.drop (kept.length - Config.ringSlots)

/-- R152: the new open record. -/
def State.openRecord (s : State) (opening stamp : Nat) : OpenShift :=
  { number := opening, openedAt := s.minute, stamp := some stamp, dOpen := s.drive.d, counts := FrameCounts.zero,
    sideA := SideCounts.zero, sideB := SideCounts.zero }

/-- R150 steps 1 to 5: the open shift is closed and a new one begun. -/
def State.closeShift (s : State) (opening stamp : Nat) : State :=
  let s1 := s.closeOffAll
  let closed : ClosedShift :=
    { shift := s1.tally.opened, closedAt := s1.minute, valuesA := s1.sideValues .A, valuesB := s1.sideValues .B }
  (s1.withTally { opened := s1.openRecord opening stamp,
                  ring := placeInRing s1.tally.ring closed opening }).clearShares

/-- SHIFT-CHANGE (R149, R150, R153, R154). -/
def State.takeShiftChange (s : State) (src closing opening stamp : Nat) : State :=
  if closing = 0 || opening = 0 || opening = closing then s
  else if closing = s.tally.opened.number then (s.closeShift opening stamp).takeQuery src closing
  else if (s.ringRecord closing).isNone && opening = s.tally.opened.number then s
  else s.takeQuery src closing

/-! ## The commands -/

/-- SHIFT_CHANGE (R149 to R154), taken by the tally unit. -/
def execShiftChange (t : Nat) (src closing opening stamp : Nat) (s : State) : Effect :=
  .next (s.whileHanded t .tally (fun s => s.takeShiftChange src closing opening stamp))

/-- TALLY_QUERY (R156), taken by the tally unit. -/
def execTallyQuery (t : Nat) (src number : Nat) (s : State) : Effect :=
  .next (s.whileHanded t .tally (fun s => s.takeQuery src number))

end Sys2Proof.Machine
end

