-- ==== Sys2Proof/Machine/Line.lean ====
section
/-! DEFINITION. The line unit: choosing and sending notices, receiving frames, learning peers, the inbound queue, flow
control and isolation (R165 to R188), and its commands. -/

namespace Sys2Proof.Machine

/-! ## Sending (R169 to R173) -/

/-- The peer-table entry of a station. -/
def State.peer (s : State) (station : Nat) : Option Peer := s.line.peers.find? (fun p => p.station == station)

/-- A queued notice is eligible (R169). -/
def State.eligible (s : State) (n : Notice) : Bool :=
  n.dst == 255 ||
    (match s.peer n.dst with
     | none => true
     | some p =>
       match p.holdUntil with
       | none => true
       | some m => m ≤ s.nowMs)

/-- The notice the transmitter takes: the oldest eligible urgent one, else the oldest eligible routine one (R169). -/
def State.chosen (s : State) : Option Notice :=
  match s.line.urgent.find? s.eligible with
  | some n => some n
  | none => s.line.routine.find? s.eligible

/-- The gap before a first attempt, in bit times (R170). -/
def State.gapBits (s : State) : Nat := if s.line.pacing = 0 then 24 else 120

/-- The chosen notice leaves its queue and its first attempt begins (R167, R170). -/
def State.beginNotice (s : State) (n : Notice) : State :=
  s.withLine
    { s.line with
      urgent := if n.urgent then s.line.urgent.erase n else s.line.urgent
      routine := if n.urgent then s.line.routine else s.line.routine.erase n
      flight := some { notice := n, attempts := 1, phase := .sending s.clock }
      receiving := false }

/-- R171: a collision: the jam starts, the collisions count rises, the pacing counter is loaded with 31. -/
def State.collide (s : State) (f : SendFlight) : State :=
  (s.withLine { s.line with flight := some { f with phase := .jamming (s.clock + 32 * s.bitTime) },
                            pacing := 31, lastTransition := s.clock }).tallyFrame
    (fun c => { c with collisions := raise 65535 1 c.collisions })

/-- One step of the back-off generator: the new bit is the exclusive-or of bits 15, 13, 12 and 10 (R172). -/
def lfsrStep (r : BitVec 16) : BitVec 16 :=
  let bit := (r.getLsbD 15 ^^ r.getLsbD 13) ^^ (r.getLsbD 12 ^^ r.getLsbD 10)
  (r <<< 1) ||| BitVec.ofNat 16 bit.toNat

/-- A draw advances the register by 8 steps (R172). -/
def lfsrDraw (r : BitVec 16) : BitVec 16 :=
  lfsrStep (lfsrStep (lfsrStep (lfsrStep (lfsrStep (lfsrStep (lfsrStep (lfsrStep r)))))))

/-- The number w drawn after the k-th collision: the j lowest bits, j the smaller of k and 8 (R172). -/
def backOff (r : BitVec 16) (k : Nat) : Nat := (lfsrDraw r).toNat % 2 ^ min k 8

/-- R172, R173: the jam ends: a draw and a back-off, or after the 16th collision the notice is dropped. -/
def State.jamEnds (s : State) (f : SendFlight) (ended : Nat) : State :=
  if f.attempts < Config.maxAttempts then
    s.withLine
      { s.line with
        lfsr := lfsrDraw s.line.lfsr
        flight := some { f with phase := .backingOff (ended + backOff s.line.lfsr f.attempts * (64 * s.bitTime)) }
        lastTransition := max s.line.lastTransition ended }
  else
    (s.withLine { s.line with flight := none, lastTransition := max s.line.lastTransition ended }).sendFailure

/-- R173: an attempt that ended at this moment has completed without a collision. -/
def State.sent (s : State) (ended : Nat) : State :=
  s.withLine { s.line with flight := none, pacing := s.line.pacing - 1,
                           lastTransition := max s.line.lastTransition ended }

/-! ## The peer table (R182 to R184) -/

/-- An entry made for a station never heard (R182). -/
def newPeer (station now : Nat) : Peer :=
  { station := station, kind := .unknown, group := none, patrol := [], lastHeard := now, holdUntil := none,
    forecast := none }

/-- An entry protected from replacement (R184). -/
def State.isProtected (s : State) (p : Peer) : Bool :=
  p.station == s.cfg.dofferStation || p.station == s.cfg.railStation ||
    s.pieces.calls.any (fun c => c.carriage == some p.station)

/-- `a` is replaced before `b`: last heard earlier, and among equals the lower station number (R184). -/
def replacedBefore (a b : Peer) : Bool :=
  a.lastHeard < b.lastHeard || (a.lastHeard == b.lastHeard && a.station ≤ b.station)

/-- The entry that a new station replaces (R184). -/
def State.replaceable (s : State) : Option Peer :=
  (sortBy replacedBefore (s.line.peers.filter (fun p => !s.isProtected p))).head?

/-- A change of the peer table. -/
def State.withPeers (s : State) (peers : List Peer) : State := s.withLine { s.line with peers := peers }

/-- R182, R184: the station has an entry, made in a free place or in place of another. -/
def State.makePeer (s : State) (station : Nat) : State :=
  if (s.peer station).isSome then s
  else if s.line.peers.length < Config.peerSlots then s.withPeers (s.line.peers ++ [newPeer station s.nowMs])
  else
    match s.replaceable with
    | some old => s.withPeers (s.line.peers.map (fun p => if p.station = old.station then newPeer station s.nowMs else p))
    | none => s

/-- A change of the entry of a station. -/
def State.editPeer (s : State) (station : Nat) (f : Peer → Peer) : State :=
  s.withPeers (s.line.peers.map (fun p => if p.station = station then f p else p))

/-- The kind is set; a different kind removes the fields that do not belong to it, hold-until is kept (R183). -/
def Peer.setKind (p : Peer) (kind : PeerKind) : Peer :=
  if p.kind = kind then p
  else
    { p with kind := kind, group := if kind = .frame then p.group else none,
             patrol := if kind = .piecer then p.patrol else [],
             forecast := if kind = .frame then p.forecast else none }

/-- Repeated numbers are left out, the first of each kept in its place (R183). -/
def dropRepeats (seen : List Nat) : List Nat → List Nat
  | [] => []
  | x :: xs => if seen.contains x then dropRepeats seen xs else x :: dropRepeats (x :: seen) xs

/-- The patrol list of a PATROL: the first 16 bytes, numbers outside 1..239 and repeats left out (R183, R202). -/
def patrolOf (numbers : List Nat) : List Nat :=
  dropRepeats [] ((numbers.take 16).filter (fun n => 1 ≤ n && n ≤ 239))

/-- R183: what a HELLO sets; one too short to carry its station kind leaves the kind, one below the least payload sets
no group (R200, log 29). -/
def Peer.learnHello (p : Peer) (payload : List Byte) : Peer :=
  if payload.length < 2 then p
  else
    let kind := peerKindOfCode (byteAt payload 1)
    let p1 := p.setKind kind
    if kind = .frame && 3 ≤ payload.length then { p1 with group := some (byteAt payload 2) } else p1

/-- R183: what a FORECAST sets; with a mode above 7 or a forecast above 999 the forecast fields stay. -/
def Peer.learnForecast (p : Peer) (payload : List Byte) (now : Nat) : Peer :=
  let p1 := p.setKind .frame
  if payload.length < 7 then p1
  else
    let p2 := { p1 with group := some (byteAt payload 1) }
    match modeOfCode (byteAt payload 2) with
    | none => p2
    | some m =>
      if wordAt payload 3 ≤ 999 then { p2 with forecast := some ⟨wordAt payload 3, now, m⟩ } else p2

/-- R183: what a notice sets in its sender's entry. -/
def Peer.learn (p : Peer) (n : Notice) (now : Nat) : Peer :=
  let p1 := { p with lastHeard := now }
  match n.kind with
  | none => p1
  | some .hello => p1.learnHello n.payload
  | some .patrol => { p1.setKind .piecer with patrol := patrolOf (n.payload.map (fun b => b.toNat)) }
  | some .forecast => p1.learnForecast n.payload now
  | some .hold => p1
  | some .call => p1.setKind .frame
  | some .cancel => p1.setKind .frame
  | some .take => p1.setKind .piecer
  | some .assign => p1.setKind .frame
  | some .done => p1.setKind .piecer
  | some .close => p1.setKind .frame
  | some .doffClaim => p1.setKind .frame
  | some .doffQueued => p1.setKind .doffer
  | some .doffGrant => p1.setKind .doffer
  | some .doffStart => p1.setKind .doffer
  | some .doffEnd => p1.setKind .doffer
  | some .doffAbort => p1.setKind .doffer
  | some .doffRefuse => p1.setKind .frame
  | some .rovingAsk => p1.setKind .frame
  | some .rovingAck => p1.setKind .rail
  | some .rovingDefer => p1.setKind .rail
  | some .rovingLaid => p1.setKind .rail
  | some .shiftChange => p1.setKind .office
  | some .unlock => p1.setKind .office
  | some .tallyQuery => p1.setKind .office
  | some .tally => p1.setKind .frame
  | some .tallyNone => p1.setKind .frame

/-- R182: the source of a notice is learned. -/
def State.learn (s : State) (n : Notice) : State :=
  (s.makePeer n.src).editPeer n.src (fun p => p.learn n s.nowMs)

/-! ## Flow control (R179 to R181) -/

/-- The free slots of the inbound queue (R177). -/
def State.freeSlots (s : State) : Nat := Config.inboundSlots - s.line.inbound.length

/-- HOLD to 255 with a time (R179, R180). -/
def State.holdNotice (s : State) (time : Nat) : Notice := s.notice .hold 255 0 (byteField time)

/-- The test of the own HOLD after every change of the free slots (R179, R180). -/
def State.testHold (s : State) : State :=
  match s.line.ownHold with
  | none =>
    if s.freeSlots ≤ s.cfg.holdThreshold then
      (s.withLine { s.line with ownHold := some (s.nowMs + Config.ownHoldMs) }).hand (s.holdNotice 255)
    else s
  | some _ =>
    if s.cfg.holdThreshold < s.freeSlots then
      (s.withLine { s.line with ownHold := none }).hand (s.holdNotice 0)
    else s

/-- R181: a HOLD from a peer acts on its entry. -/
def State.peerHolds (s : State) (station time : Nat) : State :=
  s.editPeer station (fun p => { p with holdUntil := if time = 0 then none else some (s.nowMs + 4 * time) })

/-! ## The inbound queue (R176 to R178) -/

/-- A handed notice is taken by its block, by the rules of that block's chapter (R176, R178). -/
def State.takeNotice (s : State) (n : Notice) : State :=
  let b := n.payload
  match n.kind with
  | some .take => s.takeTake n.src n.reference (wordAt b 0)
  | some .done => s.takeDone n.src n.reference (wordAt b 0) (byteAt b 2) (byteAt b 3)
  | some .doffQueued => s.takeDoffQueued n.src (byteAt b 0)
  | some .doffGrant => s.takeDoffGrant n.src (byteAt b 0)
  | some .doffStart => s.takeDoffStart n.src
  | some .doffEnd => s.takeDoffEnd n.src
  | some .doffAbort => s.takeDoffAbort n.src
  | some .rovingAck => s.takeRovingAck n.src (byteAt b 0) ((b.drop 1).map (fun x => x.toNat))
  | some .rovingDefer => s.takeRovingDefer n.src (byteAt b 0) ((b.drop 1).map (fun x => x.toNat))
  | some .rovingLaid => s.takeRovingLaid n.src (byteAt b 0) (wordAt b 1)
  | some .shiftChange => s.takeShiftChange n.src n.reference (wordAt b 0) (longAt b 2)
  | some .unlock => s.unlockSpindles (wordAt b 0)
  | some .tallyQuery => s.takeQuery n.src n.reference
  | some .hello => s
  | some .patrol => s
  | some .forecast => s
  | some .hold => s
  | some .call => s
  | some .cancel => s
  | some .assign => s
  | some .close => s
  | some .doffClaim => s
  | some .doffRefuse => s
  | some .rovingAsk => s
  | some .tally => s
  | some .tallyNone => s
  | none => s

/-- The block that owns a notice's kind (R176). -/
def Notice.owner (n : Notice) : Option Block := n.kind.bind Kind.owner

/-- The head notice is handed to its block: its slot is freed, the own HOLD is tested, the block takes it and is busy
(R178, log 10). -/
def State.handHead (s : State) (n : Notice) (rest : List Notice) (block : Block) : State :=
  (((s.withLine { s.line with inbound := rest }).makeBusy block).testHold).takeNotice n

/-- The head notices of the inbound queue are handed as long as their blocks are free (R178). -/
def State.handHeads : Nat → State → State
  | 0, s => s
  | fuel + 1, s =>
    match s.line.inbound with
    | [] => s
    | n :: rest =>
      match n.owner with
      | none => s
      | some block => if s.blockFree block then State.handHeads fuel (s.handHead n rest block) else s

/-- An accepted notice joins the inbound queue, or is dropped as an overrun or a routine discard (R177). -/
def State.placeInbound (s : State) (n : Notice) : State :=
  if s.freeSlots = 0 then s.tallyFrame (fun c => { c with inboundOverruns := raise 255 1 c.inboundOverruns })
  else if !n.urgent && s.freeSlots ≤ Config.routineFloor then
    s.tallyFrame (fun c => { c with routineDiscards := raise 255 1 c.routineDiscards })
  else (s.withLine { s.line with inbound := s.line.inbound ++ [n] }).testHold

/-- R176, R177, R178: an accepted notice of a queued kind; in the listening period it is dropped uncounted (R188). -/
def State.queueInbound (s : State) (n : Notice) : State :=
  if s.active then State.handHeads (Config.inboundSlots + 1) (s.placeInbound n) else s

/-! ## Acceptance (R175, R176, R185) -/

/-- HELLO of this part, broadcast (R185, R197, R202). -/
def State.helloNotice (s : State) (fresh : Bool) : Notice :=
  { s.notice .hello 255 0 (byteField s.start.strap ++ byteField 1 ++ byteField s.cfg.dofferGroup) with fresh := fresh }

/-- R185: what a fresh-start HELLO causes; nothing of it in the listening period (R188). -/
def State.freshHello (s : State) (src : Nat) : State :=
  if s.active then
    let s1 := if src = s.cfg.dofferStation then s.dofferRestarts else s
    let s2 := if src = s.cfg.railStation then s1.railRestarts else s1
    s2.hand (s2.helloNotice false)
  else s

/-- The payload is at least the least the part acts on (R200, R201). -/
def Notice.longEnough (n : Notice) : Bool :=
  match n.kind.bind Kind.leastPayload with
  | some k => k ≤ n.payload.length
  | none => false

/-- R176: an accepted notice is acted on at once, queued, or dropped. -/
def State.accept (s : State) (n : Notice) : State :=
  if n.longEnough then
    match n.owner with
    | some _ => s.queueInbound n
    | none =>
      if n.kind = some .hold then s.peerHolds n.src (byteAt n.payload 0)
      else if n.kind = some .hello && n.fresh then s.freshHello n.src
      else s
  else s

/-- R141: the receive-errors count rises by one. -/
def State.receiveError (s : State) : State :=
  s.tallyFrame (fun c => { c with receiveErrors := raise 65535 1 c.receiveErrors })

/-- R175, R186: a good notice from a peer restarts the isolation timer and ends isolation. -/
def State.hear (s : State) : State :=
  s.withLine { s.line with isolated := false, isolationStart := s.clock }

/-- R175: a good frame: a bad source is a receive error, this station's own number a clash; any other is a notice from
a peer, learned whatever its destination and accepted when it is addressed to this part or to 255. -/
def State.goodNotice (s : State) (n : Notice) : State :=
  if n.src = 0 || 239 < n.src then s.receiveError
  else if n.src = s.start.strap then s.withLine { s.line with clash := raise 255 1 s.line.clash }
  else
    let s1 := s.hear.learn n
    if n.dst = s.start.strap || n.dst = 255 then s1.accept n else s1

/-- The line falls idle 12 bit times after its last transition, which ends the frame (R165, R166). -/
def State.lineFalls (s : State) : State :=
  s.withLine { s.line with receiving := false, lastTransition := s.clock - 12 * s.bitTime }

/-- R174: the bytes collected in a frame are classed. -/
def State.receiveBytes (s : State) (bytes : List Byte) : State :=
  if goodFrame bytes then s.goodNotice (noticeOf bytes) else s.receiveError

/-! ## The commands -/

/-- BLOCK_BUSY_ENDS (R178): after a time above 0 the block has finished, and head notices are handed. -/
def execBlockBusyEnds (t : Nat) (block : Block) (s : State) : Effect :=
  .next (s.whileActive t (fun s =>
    match s.line.busy.of block with
    | some since =>
      if since < s.clock then
        State.handHeads (Config.inboundSlots + 1) (s.withLine { s.line with busy := s.line.busy.set block none })
      else s
    | none => s))

/-- RECEIVE_FRAME_END (R166, R174 to R178): the line becomes idle, so not within 12 bit times of a transition; of activity
with no start mark nothing is classed (R166). -/
def execReceiveFrameEnd (t : Nat) (bytes : List Byte) (s : State) : Effect :=
  .next (s.whileListening t (fun s =>
    if s.quietFor 12 then
      (if s.line.receiving then s.lineFalls.receiveBytes bytes else s.lineFalls)
    else s))

/-- HOLD (R181), accepted from a station. -/
def execHold (t : Nat) (src time : Nat) (s : State) : Effect :=
  .next (s.whileListening t (fun s =>
    s.goodNotice { dst := 255, src := src, kind := some .hold, fresh := false, reference := 0,
                   payload := byteField time }))

/-- HELLO (R183, R185), accepted from a station. -/
def execHello (t : Nat) (src kind group : Nat) (fresh : Bool) (s : State) : Effect :=
  .next (s.whileListening t (fun s =>
    s.goodNotice { dst := 255, src := src, kind := some .hello, fresh := fresh, reference := 0,
                   payload := byteField src ++ byteField kind ++ byteField group }))

/-- PATROL (R183), accepted from a station. -/
def execPatrol (t : Nat) (src : Nat) (stations : List Nat) (s : State) : Effect :=
  .next (s.whileListening t (fun s =>
    s.goodNotice { dst := 255, src := src, kind := some .patrol, fresh := false, reference := 0,
                   payload := stations.map (fun n => BitVec.ofNat 8 n) }))

/-- FORECAST (R183), accepted from a station. -/
def execForecast (t : Nat) (src group mode minutes fill : Nat) (s : State) : Effect :=
  .next (s.whileListening t (fun s =>
    s.goodNotice { dst := 255, src := src, kind := some .forecast, fresh := false, reference := 0,
                   payload := byteField src ++ byteField group ++ byteField mode ++ wordField minutes ++
                     wordField fill }))

/-- OWN_HOLD_EXPIRY (R179): HOLD(255) is handed again. -/
def execOwnHoldExpiry (t : Nat) (s : State) : Effect :=
  .next (s.whileActive t (fun s =>
    match s.line.ownHold with
    | some m =>
      if m ≤ s.nowMs then
        (s.withLine { s.line with ownHold := some (m + Config.ownHoldMs) }).hand (s.holdNotice 255)
      else s
    | none => s))

/-- PEER_HOLD_EXPIRY (R181): a hold-until that has been reached is removed. -/
def execPeerHoldExpiry (t : Nat) (station : Nat) (s : State) : Effect :=
  .next (s.whileListening t (fun s =>
    s.editPeer station (fun p => if reached p.holdUntil s.nowMs then { p with holdUntil := none } else p)))

/-- FIRST_ATTEMPT (R169, R170). -/
def execFirstAttempt (t : Nat) (s : State) : Effect :=
  .next (s.whileActive t (fun s =>
    if s.line.flight.isNone && s.idleFor s.gapBits then
      match s.chosen with
      | some n => s.beginNotice n
      | none => s
    else s))

/-- COLLISION (R171): from the first preamble bit to the last check bit of an attempt. -/
def execCollision (t : Nat) (s : State) : Effect :=
  .next (s.whileActive t (fun s =>
    match s.line.flight with
    | some f =>
      match f.phase with
      | .sending since => if s.clock ≤ since + f.notice.bitCount * s.bitTime then s.collide f else s
      | .jamming _ => s
      | .backingOff _ => s
    | none => s))

/-- JAM_END (R172, R173). -/
def execJamEnd (t : Nat) (s : State) : Effect :=
  .next (s.whileActive t (fun s =>
    match s.line.flight with
    | some f =>
      match f.phase with
      | .jamming ends => if ends ≤ s.clock then s.jamEnds f ends else s
      | .sending _ => s
      | .backingOff _ => s
    | none => s))

/-- RETRY_ATTEMPT (R172): a retry waits 24 bit times of idle line, whatever the pacing. -/
def execRetryAttempt (t : Nat) (s : State) : Effect :=
  .next (s.whileActive t (fun s =>
    match s.line.flight with
    | some f =>
      match f.phase with
      | .backingOff ends =>
        if ends ≤ s.clock && s.idleFor 24 then
          s.withLine { s.line with flight := some { f with attempts := f.attempts + 1, phase := .sending s.clock },
                                   receiving := false }
        else s
      | .sending _ => s
      | .jamming _ => s
    | none => s))

/-- NOTICE_SENT (R173): the attempt has lasted to the last bit of the check. -/
def execNoticeSent (t : Nat) (s : State) : Effect :=
  .next (s.whileActive t (fun s =>
    match s.line.flight with
    | some f =>
      match f.phase with
      | .sending since =>
        if since + f.notice.bitCount * s.bitTime ≤ s.clock then s.sent (since + f.notice.bitCount * s.bitTime) else s
      | .jamming _ => s
      | .backingOff _ => s
    | none => s))

/-- ISOLATION_TIMEOUT (R186). -/
def execIsolationTimeout (t : Nat) (s : State) : Effect :=
  .next (s.whileListening t (fun s =>
    if s.line.isolationStart + Config.isolationTime ≤ s.clock then s.withLine { s.line with isolated := true } else s))

/-- START_MARK (R166): the two ones are a start mark when at least 8 bits of alternation stand before them; the part's own
sending is not taken (R173). The line has moved at that moment, whoever drove it (R165). -/
def execStartMark (t : Nat) (alternation : Nat) (s : State) : Effect :=
  .next (s.whileListening t (fun s =>
    s.withLine { s.line with receiving := s.line.receiving || (8 ≤ alternation && !s.transmits)
                             lastTransition := max s.line.lastTransition s.clock }))

end Sys2Proof.Machine
end

