-- ==== Sys2Proof/Machine/Sensing.lean ====
section
/-! DEFINITION. The chain engine: the pass queue, judging a sense pass, blind and recovered modules, debounce and its
reports, drive bits (R2 to R18, R25 to R27), and its commands. -/

namespace Sys2Proof.Machine

/-! ## The pass queue (R5 to R7, R18) -/

/-- The other side. -/
def otherSide : Side → Side
  | .A => .B
  | .B => .A

/-- The pass the engine takes next: the other side's earliest if it has one, else the earliest waiting (R7). -/
def choosePass (queue : List Pass) (lastServed : Side) : Option Pass :=
  match queue.find? (fun p => p.side == otherSide lastServed) with
  | some p => some p
  | none => queue.head?

/-- The lamp and clamp of a spindle state at a moment in milliseconds; a flashing lamp is lit in the first half of each
second (R18). -/
def driveBitsOf (st : SpindleState) (ms : Nat) : DriveBits :=
  match st with
  | .up => ⟨false, false⟩
  | .down => ⟨true, true⟩
  | .called => ⟨true, true⟩
  | .taken => ⟨true, false⟩
  | .runOut => ⟨true, true⟩
  | .locked => ⟨ms % 1000 < 500, true⟩
  | .held => ⟨false, true⟩

/-- The drive bits of a side, formed from the spindle states, in ascending spindle number (R18). -/
def State.driveBits (s : State) (side : Side) : List DriveBits :=
  (s.spindlesOf side).filterMap (fun n => (s.spindle n).map (fun r => driveBitsOf r.state s.nowMs))

/-- The side's record at the start of a pass: a sense pass pulses the sense load output (R3). -/
def SideChain.loaded (c : SideChain) (kind : PassKind) (now : Nat) : SideChain :=
  match kind with
  | .sense => { c with loadedAt := some now }
  | .drive => c

/-- A pass starts: it leaves the queue, its side is the side served last (R3, R7, R18). -/
def State.startPass (s : State) (p : Pass) : State :=
  s.withChain { s.chain.withSide p.side ((s.chain.side p.side).loaded p.kind s.clock) with
    queue := s.chain.queue.erase p
    flight := some { pass := p, since := s.clock, frames := [],
                     bits := if p.kind == .drive then s.driveBits p.side else [] }
    lastServed := p.side }

/-- The engine takes its next pass if none is in flight; with none waiting it is idle (R7). -/
def State.nextPass (s : State) : State :=
  match s.chain.flight with
  | some _ => s
  | none =>
    match choosePass s.chain.queue s.chain.lastServed with
    | some p => s.startPass p
    | none => s

/-- A pass joins the queue; an idle engine starts it at once (R6, R7). -/
def State.joinPass (s : State) (p : Pass) : State :=
  (s.withChain { s.chain with queue := s.chain.queue ++ [p] }).nextPass

/-- The side has a sense pass waiting or in flight (R5). -/
def State.sensePending (s : State) (side : Side) : Bool :=
  s.chain.queue.contains ⟨side, .sense⟩ ||
    (match s.chain.flight with
     | some f => f.pass == ⟨side, .sense⟩
     | none => false)

/-- R5: an expiry merged into a waiting or in-flight sense pass is a late scan. -/
def State.lateScan (s : State) : State :=
  s.tallyFrame (fun c => { c with lateScans := raise 65535 1 c.lateScans })

/-- R5: a side's scan timer expires at its moment and restarts. -/
def State.scanExpires (s : State) (side : Side) (due : Nat) : State :=
  let s1 := s.withChain (s.chain.withSide side
    { s.chain.side side with scanDue := some (due + 1000 * s.cfg.scanInterval) })
  if s1.sensePending side then s1.lateScan else s1.joinPass ⟨side, .sense⟩

/-! ## Module frames (R8) -/

/-- A frame passes when its nine bits hold an odd number of ones (R3, R8). -/
def oddOnes (bits : BitVec 9) : Bool := ((List.range 9).countP (fun k => bits.getLsbD k)) % 2 == 1

/-- The yarn bits of positions 1 to 8, in that order (R3). -/
def yarnBits (bits : BitVec 9) : List Bool := (List.range 8).map (fun q => bits.getLsbD (8 - q))

/-- The pending readings of a module frame with its mark (R8). -/
def pendingOf (bits : BitVec 9) : PendingFrame := { yarn := yarnBits bits, passing := oddOnes bits }

/-! ## Reports of declared conditions (R25 to R27) -/

/-- R25: a spindle in UP is declared down; in any other state nothing changes (R27). -/
def State.declareDown (s : State) (n : Nat) : State :=
  match s.spindle n with
  | none => s
  | some r =>
    if r.state = .up then
      let s1 := s.sendDown n (fun r => { r.closeOff s.drive.d with breaks := raise 255 1 r.breaks })
      let s2 := s1.tallySide (s.sideOf n) (fun c =>
        { c with endsDown := raise 65535 1 c.endsDown,
                 startUpBreaks := if s.frame.mode == .restart then raise 255 1 c.startUpBreaks else c.startUpBreaks })
      s2.recordBreak (s.sectionOf n)
    else s

/-- The down states a declaration of up ends (R26). -/
def SpindleState.mends (st : SpindleState) : Bool := st == .down || st == .called || st == .taken || st == .runOut

/-- R26: a spindle in DOWN, CALLED, TAKEN or RUN-OUT is declared up; in any other state nothing changes (R27). -/
def State.declareUp (s : State) (n : Nat) : State :=
  match s.spindle n with
  | none => s
  | some r =>
    if r.state.mends then
      let s1 := (s.editSpindle n (fun r =>
        { r.enter .up with upMark := s.drive.d, attempts := 0, notBefore := none, call := none })).leaveBreaks n
      match r.call with
      | some c => s1.confirmCall c
      | none => s1
    else s

/-! ## Debounce (R16, R17) -/

/-- The run counter and the report of one reading: `some true` declares up, `some false` declares down (R16). -/
def debounceRec (c : Settings) (r : SpindleRec) (yarn : Bool) : SpindleRec × Option Bool :=
  if r.state = .up then
    if yarn then ({ r with run := 0 }, none)
    else if r.run + 1 < c.kDown then ({ r with run := r.run + 1 }, none)
    else ({ r with run := 0 }, some false)
  else if r.state = .held then (r, none)
  else if yarn then
    if r.run + 1 < c.kUp then ({ r with run := r.run + 1 }, none) else ({ r with run := 0 }, some true)
  else ({ r with run := 0 }, none)

/-- Debounce of one spindle moves its run counter. -/
def State.debounceCount (s : State) (n : Nat) (yarn : Bool) : State :=
  s.editSpindle n (fun r => (debounceRec s.cfg r yarn).1)

/-- The report debounce makes of one spindle, from its record before (R16). -/
def State.debounceReport (s : State) (n : Nat) (yarn : Bool) : Option Bool :=
  (s.spindle n).bind (fun r => (debounceRec s.cfg r yarn).2)

/-- One report is taken by the spindle table. -/
def State.takeReport (s : State) (p : Nat × Option Bool) : State :=
  match p.2 with
  | some true => s.declareUp p.1
  | some false => s.declareDown p.1
  | none => s

/-- R9, R16: debounce runs for the spindles of a module, then its reports are handed in order of position. -/
def State.debounceModule (s : State) (side : Side) (m : Nat) (yarn : List Bool) : State :=
  let readings := (s.moduleSpindles side m).zip yarn
  let reports := readings.map (fun p => (p.1, s.debounceReport p.1 p.2))
  let s1 := readings.foldl (fun s p => s.debounceCount p.1 p.2) s
  reports.foldl State.takeReport s1

/-! ## Applying a pass (R9 to R13) -/

/-- The record of a module bad in a pass (R10, R11). -/
def ModuleRec.bad (m : ModuleRec) : ModuleRec :=
  { suspect := min 3 (m.suspect + 1), recovery := 0, blind := m.blind || 3 ≤ m.suspect + 1 }

/-- The record of a module good in a pass (R10, R12). -/
def ModuleRec.good (m : ModuleRec) : ModuleRec :=
  if m.blind then
    if m.recovery + 1 < 8 then { suspect := 0, recovery := m.recovery + 1, blind := true }
    else { suspect := 0, recovery := 0, blind := false }
  else { suspect := 0, recovery := m.recovery, blind := false }

/-- The record of module m of a side. -/
def State.moduleRec (s : State) (side : Side) (m : Nat) : ModuleRec :=
  (s.chain.side side).modules.getD (m - 1) ModuleRec.fresh

/-- A new record for module m of a side. -/
def State.setModule (s : State) (side : Side) (m : Nat) (v : ModuleRec) : State :=
  s.withChain (s.chain.withSide side
    { s.chain.side side with modules := (s.chain.side side).modules.set (m - 1) v })

/-- The run counters of a module's spindles return to 0 (R11). -/
def State.clearRuns (s : State) (spindles : List Nat) : State :=
  spindles.foldl (fun s n => s.editSpindle n (fun r => { r with run := 0 })) s

/-- The pending readings become the last readings of a module's spindles (R10). -/
def State.storeReadings (s : State) (side : Side) (m : Nat) (yarn : List Bool) : State :=
  ((s.moduleSpindles side m).zip yarn).foldl (fun s p =>
    s.withChain { s.chain with readings := s.chain.readings.set (p.1 - 1) p.2 }) s

/-- R10 to R12, R16: one module of a pass: `good` as R9 judged it, `detect` the detect condition of this pass end. -/
def State.applyModule (s : State) (side : Side) (detect : Bool) (m : Nat) (good : Bool) (yarn : List Bool) : State :=
  let old := s.moduleRec side m
  if good then
    let s1 := (s.setModule side m old.good).storeReadings side m yarn
    if old.blind then (if old.good.blind then s1 else s1.recoverModule side m yarn)
    else if detect then s1.debounceModule side m yarn
    else s1
  else
    let s1 := s.setModule side m old.bad
    if !old.blind && old.bad.blind then (s1.clearRuns (s1.moduleSpindles side m)).blindModule side m else s1

/-- The fixed trailer 1010 0110 1001 of the chain end plug (R3). -/
def trailerPattern : BitVec 12 := 0b101001101001#12

/-- R13: the trailer-missing count after a pass. -/
def trailerCount (count : Nat) (matched : Bool) : Nat := if matched then 0 else min 3 (count + 1)

/-- R9: the modules of a pass in order of module number. -/
def State.applyModules (s : State) (side : Side) (detect matched : Bool) : Nat → List PendingFrame → State
  | _, [] => s
  | m, f :: rest =>
    (s.applyModule side detect m (matched && f.passing) f.yarn).applyModules side detect matched (m + 1) rest

/-- R9 to R16: a sense pass with these frames is applied at its end. -/
def State.applyPass (s : State) (side : Side) (frames : List PendingFrame) (matched : Bool) : State :=
  let detect := s.detects
  let s1 := s.withChain (s.chain.withSide side
    { s.chain.side side with trailerMissing := trailerCount (s.chain.side side).trailerMissing matched })
  let s2 := if detect then s1 else s1.clearRuns (s1.spindlesOf side)
  s2.applyModules side detect matched 1 frames

/-- The engine has no pass in flight. -/
def State.endFlight (s : State) : State := s.withChain { s.chain with flight := none }

/-- R6, R7, R9: a sense pass ends: it is applied, its side's drive pass joins, the next pass starts. -/
def State.senseEnds (s : State) (f : PassFlight) (trailer : BitVec 12) : State :=
  ((s.applyPass f.pass.side f.frames (trailer == trailerPattern)).endFlight).joinPass ⟨f.pass.side, .drive⟩

/-- R4, R7: a drive pass ends: the latch pulses, the modules take their outputs, the next pass starts. -/
def State.driveEnds (s : State) (f : PassFlight) : State :=
  ((s.withChain (s.chain.withSide f.pass.side
    { s.chain.side f.pass.side with latchedAt := some s.clock, outputs := f.bits })).endFlight).nextPass

/-! ## The commands -/

/-- SCAN_TIMER_EXPIRY (R5). -/
def execScanTimerExpiry (t : Nat) (side : Side) (s : State) : Effect :=
  .next (s.whileActive t (fun s =>
    match (s.chain.side side).scanDue with
    | some due => if due ≤ s.clock then s.scanExpires side due else s
    | none => s))

/-- MODULE_FRAME_RECEIVED (R8): the next module frame of the sense pass in flight. -/
def execModuleFrameReceived (t : Nat) (bits : BitVec 9) (s : State) : Effect :=
  .next (s.whileActive t (fun s =>
    match s.chain.flight with
    | some f =>
      if f.pass.kind == .sense && f.frames.length < s.modulesOf f.pass.side &&
          s.flightLasted f (9 * (f.frames.length + 1)) then
        s.withChain { s.chain with flight := some { f with frames := f.frames ++ [pendingOf bits] } }
      else s
    | none => s))

/-- SENSE_PASS_END (R9): every module frame and the trailer have been received. -/
def execSensePassEnd (t : Nat) (trailer : BitVec 12) (s : State) : Effect :=
  .next (s.whileActive t (fun s =>
    match s.chain.flight with
    | some f =>
      if f.pass.kind == .sense && f.frames.length == s.modulesOf f.pass.side &&
          s.flightLasted f (s.passBits f.pass) then
        s.senseEnds f trailer
      else s
    | none => s))

/-- DRIVE_PASS_END (R4). -/
def execDrivePassEnd (t : Nat) (s : State) : Effect :=
  .next (s.whileActive t (fun s =>
    match s.chain.flight with
    | some f =>
      if f.pass.kind == .drive && s.flightLasted f (s.passBits f.pass) then s.driveEnds f else s
    | none => s))

end Sys2Proof.Machine
end

