-- ==== Sys2Proof/Machine/ConfigImage.lean ====
section
/-! DEFINITION. The configuration image: its layout (R203), the clamping of its tuning fields (R192) and the checks that
make a configuration fault (R190, R191, R193). -/

namespace Sys2Proof.Machine

/-! ## Fields (R203) -/

/-- The 128 bytes of the image; a byte that is not presented reads as all ones (R191, log 17). -/
def imageOf (presented : List Byte) : List Byte := (List.range 128).map (fun k => presented.getD k 0xFF#8)

/-- A tuning field: the all-ones value takes the default where there is one, any other value is brought within its range
(R192). -/
def clamp (allOnes low high : Nat) (default : Option Nat) (v : Nat) : Nat :=
  match default with
  | some d => if v = allOnes then d else min high (max low v)
  | none => min high (max low v)

/-- A one-byte tuning field with a default. -/
def tuneByte (image : List Byte) (address low high default : Nat) : Nat :=
  clamp 255 low high (some default) (byteAt image address)

/-- A two-byte tuning field with a default. -/
def tuneWord (image : List Byte) (address low high default : Nat) : Nat :=
  clamp 65535 low high (some default) (wordAt image address)

/-- A two-byte tuning field without a default. -/
def rangeWord (image : List Byte) (address low high : Nat) : Nat := clamp 65535 low high none (wordAt image address)

/-- The profile point count read; at most the eight points the layout holds are taken. -/
def profileCount (image : List Byte) : Nat := byteAt image 21

/-- The first n profile points, fills and speeds clamped (R203). -/
def profileOf (image : List Byte) : List ProfilePoint :=
  (List.range (min 8 (profileCount image))).map (fun k =>
    ⟨rangeWord image (22 + 4 * k) 0 1000, rangeWord image (24 + 4 * k) 3000 25000⟩)

/-- The settings of an image, every tuning field clamped (R192, R203). -/
def settingsOf (image : List Byte) : Settings :=
  { sectionsA := byteAt image 1
    sectionsB := byteAt image 2
    chainClock := byteAt image 3
    lineRate := byteAt image 4
    dofferGroup := byteAt image 5
    dofferStation := byteAt image 6
    railStation := byteAt image 7
    scanInterval := tuneByte image 8 20 250 50
    kDown := tuneByte image 9 2 8 3
    kUp := tuneByte image 10 1 8 2
    detectDelay := tuneByte image 11 1 30 5
    pulses := clamp 255 1 64 none (byteAt image 12)
    circumference := rangeWord image 13 5000 15000
    draft := rangeWord image 15 1000 8000
    tex := rangeWord image 17 300 20000
    copLength := rangeWord image 19 500 20000
    profile := profileOf image
    sMin := rangeWord image 54 3000 25000
    sMax := rangeWord image 56 3000 25000
    sFull := rangeWord image 58 10000 30000
    rampStep := tuneWord image 60 50 2000 500
    maxTrim := tuneByte image 62 0 100 60
    openCallLimit := tuneByte image 63 1 8 4
    settleTime := tuneByte image 64 0 60 5
    repeatInterval := tuneByte image 65 5 60 15
    piecingTimeout := tuneByte image 66 10 180 60
    verifyWindow := tuneByte image 67 1 10 3
    recallDelay := tuneWord image 68 5 300 30
    maxAttempts := tuneByte image 70 1 7 3
    restartGrace := tuneWord image 71 30 600 120
    positionTimeout := tuneWord image 73 30 300 90
    doffingTimeout := tuneByte image 75 5 30 12
    forecastInterval := tuneByte image 76 1 15 2
    slotWidth := tuneByte image 77 5 40 15
    claimFill := tuneWord image 78 900 999 970
    dofferLead := tuneByte image 80 0 30 10
    railLead := tuneByte image 81 10 240 60
    lookahead := tuneByte image 82 0 120 30
    batchDelay := tuneWord image 83 0 300 60
    clusterCount := tuneByte image 85 3 12 6
    laidMetres := tuneWord image 86 100 9000 1800
    rogueThreshold := tuneByte image 88 2 50 8
    holdThreshold := tuneByte image 89 3 8 5 }

/-! ## Checks -/

/-- The two whole-image checks: the format byte and the sum (R191). -/
def imageGood (image : List Byte) : Bool :=
  byteAt image 0 == 1 && (image.map (fun b => b.toNat)).sum % 256 == 0

/-- A usable strap value (R190). -/
def strapGood (strap : Nat) : Bool := 1 ≤ strap && strap ≤ 239

/-- A doffer or rail station the checks pass; a faulty strap value is not compared (R193). -/
def stationGood (strap station : Nat) : Bool :=
  1 ≤ station && station ≤ 239 && !(strapGood strap && station == strap)

/-- Each fill above the one before it (R193). -/
def risingFills : List ProfilePoint → Bool
  | [] => true
  | [_] => true
  | p :: q :: rest => p.fill < q.fill && risingFills (q :: rest)

/-- The first fill is 0 and the fills rise (R193). -/
def profileGood (points : List ProfilePoint) : Bool :=
  match points with
  | [] => false
  | p :: _ => p.fill == 0 && risingFills points

/-- The structural checks of R193 that read the clamped fields. -/
def structureGood (strap : Nat) (image : List Byte) : Bool :=
  let c := settingsOf image
  1 ≤ c.sectionsA && c.sectionsA ≤ 24 && c.sectionsB ≤ 24 && c.chainClock ≤ 3 && c.lineRate ≤ 2 &&
    2 ≤ profileCount image && profileCount image ≤ 8 && profileGood c.profile && c.sMin ≤ c.sMax &&
    c.sMax ≤ c.sFull && 1 ≤ c.dofferGroup && stationGood strap c.dofferStation && stationGood strap c.railStation

/-- The configuration of the start is good (R193). -/
def configurationGood (strap : Nat) (image : List Byte) : Bool :=
  strapGood strap && imageGood image && structureGood strap image

end Sys2Proof.Machine
end

