-- ==== Sys2Proof/Machine/Start.lean ====
section
/-! DEFINITION. The cold and the warm start, configuration fault and becoming active (R194 to R198), what each block makes
of a start (R20, R39, R40, R61, R62, R88, R115, R116, R138, R139, R162, R163, R187), and the commands. -/

namespace Sys2Proof.Machine

/-! ## Supply and reset (R195, R196, R198) -/

/-- Every piece of state at its cold value, in a phase, with the strap pins at a value. What stands outside the part
stays: the commands that wait, the input pins, the outputs the modules hold (log 22). -/
def State.coldState (s : State) (phase : Phase) (strap : Nat) : State :=
  { State.reset with
    pending := s.pending
    freeUses := s.freeUses
    pins := s.pins.refiltered
    start := { State.reset.start with phase := phase, strap := strap }
    chain := ChainUnit.fresh 0 0 s.chain.sideA.outputs s.chain.sideB.outputs
    line := LineUnit.fresh strap 0 }

/-- What retained memory keeps of a spindle record; the rest takes its cold value (R198). -/
def SpindleRec.retained (r : SpindleRec) : SpindleRec :=
  { SpindleRec.fresh 0 with state := r.state, attempts := r.attempts, breaks := r.breaks, length := r.length,
                            heldFrom := r.heldFrom }

/-- What retained memory keeps of a supply record; the rest takes its cold value (R198). -/
def SupplyRec.retained (r : SupplyRec) : SupplyRec :=
  { SupplyRec.fresh r.creel r.laidMark r.laidLength with state := r.state }

/-- R196: the reset pin is asserted: everything outside retained memory is lost; the strap register and the generator
seeded from it stand until the release, which reads the straps (DESIGN CHOICE, log 34). -/
def State.loseVolatile (s : State) : State :=
  { pending := s.pending
    clock := s.clock
    minutesBegun := s.minutesBegun
    freeUses := s.freeUses
    start := { phase := .inReset, phaseStart := s.clock, fresh := false, strap := s.start.strap, image := [],
               settings := Settings.unread, keptA := s.start.keptA, keptB := s.start.keptB }
    pins := s.pins.refiltered
    chain := ChainUnit.fresh 0 0 s.chain.sideA.outputs s.chain.sideB.outputs
    table := { recs := s.table.recs.map SpindleRec.retained, breakList := [], heldA := s.table.heldA,
               heldB := s.table.heldB }
    pieces := { calls := [], serial := s.pieces.serial, verifyInUse := 0 }
    drive := { DriveUnit.fresh 0 s.clock with remainder := s.drive.remainder, d := s.drive.d,
                                              copMark := s.drive.copMark }
    frame := FrameUnit.fresh
    roving := { recs := s.roving.recs.map SupplyRec.retained, batchDue := none, askSeq := 1 }
    tally := s.tally
    line := LineUnit.fresh s.start.strap s.clock }

/-- R190, R196: the reset pin is released: the strap pins are read and the configuration read begins. -/
def State.beginRead (s : State) (strap : Nat) : State :=
  (s.withStart { s.start with phase := .reading, phaseStart := s.clock, fresh := false, strap := strap }).withLine
    (LineUnit.fresh strap s.clock)

/-! ## What each block makes of a good configuration (R195 step 3, R196)

A cold start finds retained memory at its cold values and retained section counts of 0, so the warm-start rules give it
the cold values of R39, R61, R115 and R138 (09, note to R196). -/

/-- The section counts read equal the retained ones (R40, R139). -/
def StartUnit.sameCounts (u : StartUnit) (c : Settings) : Bool := u.keptA == c.sectionsA && u.keptB == c.sectionsB

/-- R40: a retained spindle record after the start. -/
def SpindleRec.restarted (r : SpindleRec) (maxAttempts : Nat) (d : DCount) : SpindleRec :=
  let kept := { SpindleRec.fresh 0 with breaks := r.breaks, length := r.length }
  if r.standsLocked || maxAttempts ≤ r.attempts then { kept with state := .locked, attempts := maxAttempts }
  else { kept with attempts := r.attempts, upMark := d }

/-- R39, R40: the spindle records after the start. -/
def State.startSpindles (s : State) (c : Settings) : SpindleTable :=
  { s.table with
    recs :=
      if s.start.sameCounts c then s.table.recs.map (fun r => r.restarted c.maxAttempts s.drive.d)
      else List.replicate (24 * (c.sectionsA + c.sectionsB)) (SpindleRec.fresh s.drive.d)
    breakList := [] }

/-- R61, R62: the delivery and drive unit after the start. -/
def DriveUnit.started (u : DriveUnit) (c : Settings) : DriveUnit :=
  let u1 : DriveUnit :=
    { DriveUnit.fresh c.sMin u.pwmNext with
      remainder := if c.threshold ≤ u.remainder then 0 else u.remainder
      d := u.d
      copMark := u.copMark
      tickMark := u.d }
  (u1.refill c).forecasts c

/-- R116: the frame and doff unit after the start, with the fill the delivery unit has computed. -/
def frameStarted (fill second : Nat) : FrameUnit :=
  { FrameUnit.fresh with fullAt := if fill = 1000 then some second else none }

/-- R139: a retained supply record after the start; `begin` is the moment scanning begins, in milliseconds. -/
def SupplyRec.restarted (r : SupplyRec) (d : DCount) (draft scanning : Nat) : SupplyRec :=
  let remaining := r.estimate d draft
  let state : SupplyState :=
    match r.state with
    | .none => .none
    | .due => .due
    | .asked => .due
    | .acked => .due
    | .deferred => .due
    | .runOut => if remaining = 0 then .runOut else .none
  { SupplyRec.fresh r.creel r.laidMark r.laidLength with
    state := state
    remaining := remaining
    time := if remaining = 0 then some 0 else none
    retryAt := if state = .runOut then some scanning else none }

/-- The section numbers configured: 1 to s_A and 25 to 24 + s_B (R118). -/
def sectionNumbers (c : Settings) : List Nat :=
  (List.range c.sectionsA).map (fun k => k + 1) ++ (List.range c.sectionsB).map (fun k => k + 25)

/-- R138, R139: the roving unit after the start. -/
def State.startRoving (s : State) (c : Settings) (scanning : Nat) : RovingUnit :=
  { recs :=
      if s.start.sameCounts c then s.roving.recs.map (fun r => r.restarted s.drive.d c.draft scanning)
      else (sectionNumbers c).map (fun k => SupplyRec.fresh k s.drive.d (10 * c.laidMetres))
    batchDue := none
    askSeq := 1 }

/-- R80: the verify window in use, in milliseconds. -/
def verifyWindowInUse (c : Settings) : Nat := max (1000 * c.verifyWindow) ((c.kUp + 1) * c.scanInterval)

/-- R195 steps 3 and 4: every block sets its state from the configuration, and the listening period begins. -/
def State.beginListening (s : State) (image : List Byte) : State :=
  let c := settingsOf image
  let drive := s.drive.started c
  { s with
    start := { s.start with phase := .listening, phaseStart := s.clock, image := image, settings := c,
                            keptA := c.sectionsA, keptB := c.sectionsB }
    chain := ChainUnit.fresh (3 * c.sectionsA) (3 * c.sectionsB) s.chain.sideA.outputs s.chain.sideB.outputs
    table := s.startSpindles c
    pieces := { calls := [], serial := s.pieces.serial, verifyInUse := verifyWindowInUse c }
    drive := drive
    frame := frameStarted drive.fill s.second
    roving := s.startRoving c ((s.clock + Config.listenTime) / 1000)
    line := LineUnit.fresh s.start.strap s.clock }

/-- R194: the start ends in configuration fault; retained memory is not changed. -/
def State.enterFault (s : State) (image : List Byte) : State :=
  s.withStart { s.start with phase := .configFault, phaseStart := s.clock, image := image }

/-- R191, R193: the read is complete; the start goes on or stops. -/
def State.endRead (s : State) (presented : List Byte) : State :=
  let image := imageOf presented
  if configurationGood s.start.strap image then s.beginListening image else s.enterFault image

/-! ## Becoming active (R197) -/

/-- A side with a chain starts its scan timer with a full scan interval (R5, R197). -/
def State.startScan (s : State) (side : Side) : State :=
  if 0 < s.modulesOf side then
    s.withChain (s.chain.withSide side { s.chain.side side with scanDue := some (s.clock + 1000 * s.cfg.scanInterval) })
  else s

/-- R139: the roving unit as scanning begins: every RUN-OUT section is asked for, the batch timer starts if any is DUE. -/
def State.rovingBegins (s : State) : State :=
  let s1 := s.askRunOut ((s.roving.recs.filter (fun r => r.state == .runOut)).map (fun r => r.creel))
  if s1.anyDue then s1.startBatch else s1

/-- R197: the part becomes active: HELLO, the scan timers, the update tick, the first FORECAST, the roving asks. -/
def State.becomeActive (s : State) : State :=
  let s1 := s.withStart { s.start with phase := .active, phaseStart := s.clock }
  let s2 := s1.hand (s1.helloNotice s.start.fresh)
  let s3 := (s2.startScan .A).startScan .B
  let s4 := s3.withDrive { s3.drive with tickDue := some (s3.clock + Config.tickTime) }
  s4.buildForecast.rovingBegins

/-! ## The commands -/

/-- POWER_ON (R195): a cold start, from whatever state; with the reset pin asserted the part holds its cold values in
reset, and the release begins a warm start (R196, log 39). -/
def execPowerOn (strap : Nat) (s : State) : Effect :=
  .next (if s.pins.reset then (s.coldState .reading strap).loseVolatile else s.coldState .reading strap)

/-- RESET_ASSERT (R196, R204): the pin is low from now on; a part with supply that was not in reset loses its volatile
state. -/
def execResetAssert (t : Nat) (s : State) : Effect :=
  let s1 := (s.reach t).withPins (s.pins.atReset true)
  .next (if s1.clockRuns then s1.loseVolatile else s1)

/-- RESET_RELEASE (R196, R204): the pin is high from now on; a part held in reset begins its warm start. -/
def execResetRelease (strap : Nat) (s : State) : Effect :=
  let s1 := s.withPins (s.pins.atReset false)
  .next (if s1.start.phase == .inReset then s1.beginRead strap else s1)

/-- CONFIGURATION_READ_END (R191): 10.56 ms after the read began. -/
def execConfigurationReadEnd (t : Nat) (image : List Byte) (s : State) : Effect :=
  let s1 := s.reach t
  .next (if s1.start.phase == .reading && s1.start.phaseStart + Config.readTime ≤ s1.clock then s1.endRead image else s1)

/-- BECOMING_ACTIVE (R197): the end of the listening period of 2 s. -/
def execBecomingActive (t : Nat) (s : State) : Effect :=
  let s1 := s.reach t
  .next (if s1.start.phase == .listening && s1.start.phaseStart + Config.listenTime ≤ s1.clock then s1.becomeActive
    else s1)

/-- SUPPLY_LOST (R195): the part stops and retained memory is lost; the next start is cold. The reset pin keeps its level
(R204). -/
def execSupplyLost (s : State) : Effect := .next (s.coldState .off s.start.strap)

end Sys2Proof.Machine
end

