-- ==== Sys2Proof/Machine/Tick.lean ====
section
/-! DEFINITION. The two events of the part's own clock that bear on several blocks: the update tick (R43) and the start
of a frame minute (R199), with their commands. -/

namespace Sys2Proof.Machine

/-! ## The update tick (R43) -/

/-- R44, R45, R48, R49: rate and forecasts. -/
def State.deliveryTick (s : State) : State := s.withDrive (s.drive.tickRate.forecasts s.cfg)

/-- R50, R105 to R107: the trim of this tick is formed, held, and handed back to the delivery and drive unit, which keeps it
for the natural forecast of the next tick (R49). -/
def State.trimTick (s : State) : State :=
  (s.withFrame { s.frame with trim := s.trimNow }).withDrive { s.drive with trimGiven := s.trimNow }

/-- R55: the speed update of a tick, in RUNNING and RESTART only. -/
def State.speedTick (s : State) : State :=
  if calling s.frame.mode then s.withDrive (s.drive.updateSpeed s.cfg s.frame.trim s.drive.speed) else s

/-- The timer of the update tick starts again (R43). -/
def State.restartTick (s : State) (due : Nat) : State :=
  s.withDrive { s.drive with tickDue := some (due + Config.tickTime) }

/-- The work of an update tick: delivery and drive, trim, speed, claim, FORECAST, the walk, supply (R43, log 9). -/
def State.tickWork (s : State) : State :=
  (((((s.deliveryTick.trimTick).speedTick).claimAtTick).forecastIfMoved).walk).rovingTick

/-- UPDATE_TICK (R43). -/
def execUpdateTick (t : Nat) (s : State) : Effect :=
  .next (s.whileActive t (fun s =>
    match s.drive.tickDue with
    | some due => if due ≤ s.clock then (s.restartTick due).tickWork else s
    | none => s))

/-! ## The frame minute (R14, R97, R99, R135, R199) -/

/-- The counts of the frame part that a beginning frame minute raises. -/
def State.minuteCounts (s : State) : State :=
  s.tallyFrame (fun c =>
    { c with
      blindMinutes := raise 65535 s.blindModules c.blindMinutes
      runOutMinutes := raise 65535 s.runOutSections c.runOutMinutes
      stopped := if s.frame.mode == .stopped then raise 65535 1 c.stopped else c.stopped
      doffStall := if s.frame.mode == .doffStall then raise 65535 1 c.doffStall else c.doffStall })

/-- FRAME_MINUTE (R199): the next frame minute begins, in every condition in which part time runs; its counts are
raised from the listening period on (R197). -/
def execFrameMinute (t : Nat) (s : State) : Effect :=
  let s1 := s.reach t
  .next (if s1.clockRuns && s1.minutesBegun < s1.minute then
      (let s2 := s1.withMinutesBegun (s1.minutesBegun + 1)
       if s2.listens then s2.minuteCounts else s2)
    else s1)

end Sys2Proof.Machine
end

