-- ==== Sys2Proof/Machine/Dispatch.lean ====
section
/-! DEFINITION. One arm for each command, in the order of spec/opcode_table.json, each one call of its meaning. -/

namespace Sys2Proof.Machine

/-- The effect of a command on everything but the commands that wait. -/
def exec (i : Instr) (s : State) : Host.Outcome State Fault Refusal :=
  match i with
  | .powerOn strap => Sys2Proof.Machine.execPowerOn strap s
  | .resetAssert t => Sys2Proof.Machine.execResetAssert t s
  | .resetRelease strap => Sys2Proof.Machine.execResetRelease strap s
  | .configurationReadEnd t image => Sys2Proof.Machine.execConfigurationReadEnd t image s
  | .becomingActive t => Sys2Proof.Machine.execBecomingActive t s
  | .frameMinute t => Sys2Proof.Machine.execFrameMinute t s
  | .scanTimerExpiry t side => Sys2Proof.Machine.execScanTimerExpiry t side s
  | .moduleFrameReceived t bits => Sys2Proof.Machine.execModuleFrameReceived t bits s
  | .sensePassEnd t trailer => Sys2Proof.Machine.execSensePassEnd t trailer s
  | .drivePassEnd t => Sys2Proof.Machine.execDrivePassEnd t s
  | .sideClearPress t side => Sys2Proof.Machine.execSideClearPress t side s
  | .unlock t spindle => Sys2Proof.Machine.execUnlock t spindle s
  | .frontRollerPulse t => Sys2Proof.Machine.execFrontRollerPulse t s
  | .rollerStopsTurning t => Sys2Proof.Machine.execRollerStopsTurning t s
  | .updateTick t => Sys2Proof.Machine.execUpdateTick t s
  | .pwmPeriodStart t => Sys2Proof.Machine.execPwmPeriodStart t s
  | .callRepeat t call => Sys2Proof.Machine.execCallRepeat t call s
  | .withdrawnUntaken t call => Sys2Proof.Machine.execWithdrawnUntaken t call s
  | .take t src call spindle => Sys2Proof.Machine.execTake t src call spindle s
  | .done t src call spindle result reason => Sys2Proof.Machine.execDone t src call spindle result reason s
  | .piecingTimeout t call => Sys2Proof.Machine.execPiecingTimeout t call s
  | .verifyWindowCloses t call => Sys2Proof.Machine.execVerifyWindowCloses t call s
  | .runPermitRise t => Sys2Proof.Machine.execRunPermitRise t s
  | .runPermitFall t => Sys2Proof.Machine.execRunPermitFall t s
  | .stopButton t => Sys2Proof.Machine.execStopButton t s
  | .driveFault t => Sys2Proof.Machine.execDriveFault t s
  | .atDoffPosition t => Sys2Proof.Machine.execAtDoffPosition t s
  | .doffDoneButton t => Sys2Proof.Machine.execDoffDoneButton t s
  | .restartGrace t => Sys2Proof.Machine.execRestartGrace t s
  | .positionTimeout t => Sys2Proof.Machine.execPositionTimeout t s
  | .doffingTimeout t => Sys2Proof.Machine.execDoffingTimeout t s
  | .doffStart t src => Sys2Proof.Machine.execDoffStart t src s
  | .doffEnd t src => Sys2Proof.Machine.execDoffEnd t src s
  | .doffAbort t src => Sys2Proof.Machine.execDoffAbort t src s
  | .doffQueued t src position => Sys2Proof.Machine.execDoffQueued t src position s
  | .doffGrant t src eta => Sys2Proof.Machine.execDoffGrant t src eta s
  | .forecastInterval t => Sys2Proof.Machine.execForecastInterval t s
  | .claimAnswerWait t => Sys2Proof.Machine.execClaimAnswerWait t s
  | .claimPause t => Sys2Proof.Machine.execClaimPause t s
  | .batchTimer t => Sys2Proof.Machine.execBatchTimer t s
  | .rovingAnswerWait t => Sys2Proof.Machine.execRovingAnswerWait t s
  | .rovingAck t src eta sections => Sys2Proof.Machine.execRovingAck t src eta sections s
  | .etaExpiry t => Sys2Proof.Machine.execEtaExpiry t s
  | .rovingDefer t src minutes sections => Sys2Proof.Machine.execRovingDefer t src minutes sections s
  | .deferralEnd t => Sys2Proof.Machine.execDeferralEnd t s
  | .rovingLaid t src creel metres => Sys2Proof.Machine.execRovingLaid t src creel metres s
  | .shiftChange t src closing opening stamp => Sys2Proof.Machine.execShiftChange t src closing opening stamp s
  | .tallyQuery t src number => Sys2Proof.Machine.execTallyQuery t src number s
  | .blockBusyEnds t block => Sys2Proof.Machine.execBlockBusyEnds t block s
  | .receiveFrameEnd t bytes => Sys2Proof.Machine.execReceiveFrameEnd t bytes s
  | .hold t src time => Sys2Proof.Machine.execHold t src time s
  | .hello t src kind group fresh => Sys2Proof.Machine.execHello t src kind group fresh s
  | .patrol t src stations => Sys2Proof.Machine.execPatrol t src stations s
  | .forecast t src group mode minutes fill => Sys2Proof.Machine.execForecast t src group mode minutes fill s
  | .ownHoldExpiry t => Sys2Proof.Machine.execOwnHoldExpiry t s
  | .peerHoldExpiry t station => Sys2Proof.Machine.execPeerHoldExpiry t station s
  | .firstAttempt t => Sys2Proof.Machine.execFirstAttempt t s
  | .collision t => Sys2Proof.Machine.execCollision t s
  | .jamEnd t => Sys2Proof.Machine.execJamEnd t s
  | .retryAttempt t => Sys2Proof.Machine.execRetryAttempt t s
  | .noticeSent t => Sys2Proof.Machine.execNoticeSent t s
  | .isolationTimeout t => Sys2Proof.Machine.execIsolationTimeout t s
  | .supplyLost => Sys2Proof.Machine.execSupplyLost s
  | .driveFaultClears t => Sys2Proof.Machine.execDriveFaultClears t s
  | .atDoffPositionClears t => Sys2Proof.Machine.execAtDoffPositionClears t s
  | .buttonRelease t button => Sys2Proof.Machine.execButtonRelease t button s
  | .startMark t alternation => Sys2Proof.Machine.execStartMark t alternation s

end Sys2Proof.Machine
end

