-- ==== Sys2Proof/Safety.lean ====
section
/-! DEFINITION. What the spec says of every state of the part: the invariants that the claims name. -/

namespace Sys2Proof.Machine

/-! ## The moment of a command -/

/-- The state as a command of moment `t` finds it while part time runs: the clock alone has moved (R199, log 1). -/
def State.later (s : State) (t : Nat) : State := { s with clock := max s.clock t }

/-- A block that was handed a notice at a moment may be busy with it still: below 1 ms, the tally unit at most 30 ms
(R178). -/
def mayBeBusy (block : Block) (since now : Nat) : Prop :=
  if block = .tally then now ≤ since + 30000 else now < since + 1000

/-- At the moment of a command no notice waits, and a block can be handed one: the condition of the rows that are the
taking of a handed notice (R178, log 11). -/
def State.canHand (s : State) (t : Nat) (block : Block) : Prop :=
  s.line.inbound = [] ∧ ∀ u, s.line.busy.of block = some u → ¬mayBeBusy block u (max s.clock t)

/-- The state as such a row finds it: the clock has moved, and its block is busy from then on (R178). -/
def State.handed (s : State) (t : Nat) (block : Block) : State :=
  { s.later t with line := { s.line with busy := s.line.busy.set block (some (max s.clock t)) } }

/-- An input can change to a level at the moment of a command: it stands at the other level, and 10 ms have passed since
its last change was taken (R204, log 36). -/
def State.mayChange (s : State) (t : Nat) (i : Input) (level : Bool) : Prop :=
  s.pins.level i ≠ level ∧ ∀ u, s.pins.changes.of i = some u → u + 10000 ≤ max s.clock t

/-- The state with the change taken at that moment, before anything acts on it (R90, R204). -/
def State.changed (s : State) (t : Nat) (i : Input) (level : Bool) : State :=
  { s.later t with pins := s.pins.take i level (some (max s.clock t)) }

/-- Every state in which the receiver works and pulses are counted (R188, R195). -/
def State.underWay (s : State) : Prop := s.start.phase = .listening ∨ s.start.phase = .active

/-- The claim record is NONE and no claim pause lies ahead of the moment (R108). -/
def State.mayClaimAt (s : State) (t : Nat) : Bool :=
  s.frame.claim.state == .none &&
    (match s.frame.claim.pause with
     | some m => m ≤ t / 1000
     | none => true)

/-- The four conditions under which the dispatcher may open a call (R65, R66). -/
def State.callsMayOpen (s : State) : Prop :=
  (s.frame.mode = .running ∨ s.frame.mode = .restart) ∧ s.line.isolated = false ∧
    (∃ p ∈ s.line.peers, p.kind = .piecer ∧ s.start.strap ∈ p.patrol ∧ s.clock / 1000 ≤ p.lastHeard + 30000) ∧
    s.pieces.calls.length < s.cfg.openCallLimit

/-- A spindle that a walk may choose (R67). -/
def State.endWaits (s : State) (n : Nat) : Prop :=
  ∃ r, s.spindle n = some r ∧ r.state = .down ∧ r.downSince + s.cfg.settleTime ≤ s.clock / 1000000 ∧
    ∀ b, r.notBefore = some b → b ≤ s.clock / 1000000

/-- The counts of one side of the open shift record. -/
def State.sideCounts (s : State) : Side → SideCounts
  | .A => s.tally.opened.sideA
  | .B => s.tally.opened.sideB

/-! ## Places and tables -/

/-- The outbound queues: 12 places each, at most one FORECAST and one HELLO between them (R167, R168). -/
def State.outboundBounded (s : State) : Prop :=
  s.line.urgent.length ≤ 12 ∧ s.line.routine.length ≤ 12 ∧
    s.line.routine.countP (fun n => n.kind == some .forecast) ≤ 1 ∧
    s.line.urgent.countP (fun n => n.kind == some .hello) ≤ 1

/-- The inbound queue: 16 slots (R177). -/
def State.inboundBounded (s : State) : Prop := s.line.inbound.length ≤ 16

/-- The peer table: 32 entries, one for each station (R182). -/
def State.peersBounded (s : State) : Prop :=
  s.line.peers.length ≤ 32 ∧ (s.line.peers.map (fun p => p.station)).Nodup

/-- The ring of closed shifts: 4 records with distinct numbers, none the open shift's (R151). -/
def State.ringBounded (s : State) : Prop :=
  s.tally.ring.length ≤ 4 ∧ (s.tally.ring.map (fun c => c.shift.number)).Nodup ∧
    s.tally.opened.number ∉ s.tally.ring.map (fun c => c.shift.number)

/-- The rate buckets and the recent breaks of each section (R44, R130). -/
def State.historiesBounded (s : State) : Prop :=
  s.drive.buckets.length ≤ 6 ∧ ∀ r ∈ s.roving.recs, r.breaks.length ≤ 12

/-- Every queue, table and ring stands within what the spec gives it. -/
def State.withinBounds (s : State) : Prop :=
  s.outboundBounded ∧ s.inboundBounded ∧ s.peersBounded ∧ s.ringBounded ∧ s.historiesBounded

/-! ## Counts (R141, R142, R143) -/

/-- Every count of a frame part within its field (R141). -/
def FrameCounts.inRange (c : FrameCounts) : Prop :=
  c.doffs ≤ 255 ∧ c.dofferWait ≤ 65535 ∧ c.doffStall ≤ 65535 ∧ c.stopped ≤ 65535 ∧ c.runOutMinutes ≤ 65535 ∧
    c.blindMinutes ≤ 65535 ∧ c.dofferSilent ≤ 255 ∧ c.railSilent ≤ 255 ∧ c.collisions ≤ 65535 ∧
    c.sendFailures ≤ 255 ∧ c.receiveErrors ≤ 65535 ∧ c.inboundOverruns ≤ 255 ∧ c.routineDiscards ≤ 255 ∧
    c.lateScans ≤ 65535

/-- Every count of a side within its field (R142). -/
def SideCounts.inRange (c : SideCounts) : Prop :=
  c.endsDown ≤ 65535 ∧ c.startUpBreaks ≤ 255 ∧ c.pieced ≤ 65535 ∧ c.piecedByHand ≤ 255 ∧ c.failed ≤ 255 ∧
    c.lapsed ≤ 255 ∧ c.untaken ≤ 255 ∧ c.locked ≤ 255

/-- Every count of a shift record within its field. -/
def OpenShift.inRange (o : OpenShift) : Prop := o.counts.inRange ∧ o.sideA.inRange ∧ o.sideB.inRange

/-- Every count of the open record and of the closed records within its field (R143). -/
def State.countsInRange (s : State) : Prop :=
  s.tally.opened.inRange ∧ ∀ c ∈ s.tally.ring, c.shift.inRange

/-! ## Drive, mode and claim -/

/-- R41, R47, R53, R54, R57: the values of the delivery and drive unit once the configuration is read. -/
def State.driveInRange (s : State) : Prop :=
  s.drive.remainder < 10000 * s.cfg.pulses ∧ s.drive.fill ≤ 1000 ∧
    (s.drive.fullLatch = true ↔ s.drive.fill = 1000) ∧ s.cfg.sMin ≤ s.drive.speed ∧ s.drive.speed ≤ s.cfg.sMax ∧
    s.drive.dutyWaiting ≤ 1023 ∧ s.drive.dutyRunning ≤ 1023

/-- R92: each of the three timers of the frame and doff unit runs exactly in the mode that owns it. -/
def State.timersOwned (s : State) : Prop :=
  (s.frame.graceDue.isSome = true ↔ s.frame.mode = .restart) ∧
    (s.frame.positionDue.isSome = true ↔ s.frame.mode = .fullStop) ∧
    (s.frame.doffingDue.isSome = true ↔ s.frame.mode = .doffing)

/-- R49, R107: the trim held and the trim of the previous tick are at most max trim, the first 0 unless the frame runs with no
claim. -/
def State.trimSound (s : State) : Prop :=
  s.frame.trim ≤ s.cfg.maxTrim ∧ s.drive.trimGiven ≤ s.cfg.maxTrim ∧
    ((s.frame.claim.state ≠ .none ∨ ¬(s.frame.mode = .running ∨ s.frame.mode = .restart)) → s.frame.trim = 0)

/-- R47, R63, R81, R92: fill is 1000 from FULL-STOP to the doff; calls live only in RUNNING and RESTART, within the
limit; the reason stands in STOPPED alone. -/
def State.modeSound (s : State) : Prop :=
  ((s.frame.mode = .fullStop ∨ s.frame.mode = .fullWait ∨ s.frame.mode = .doffing ∨ s.frame.mode = .doffStall) →
      s.drive.fill = 1000) ∧
    (¬(s.frame.mode = .running ∨ s.frame.mode = .restart) → s.pieces.calls = []) ∧
    s.pieces.calls.length ≤ s.cfg.openCallLimit ∧ s.cfg.openCallLimit ≤ 8 ∧
    (s.frame.reason.isSome = true ↔ s.frame.mode = .stopped)

/-- The frame's own state is sound from the listening period on. -/
def State.frameSound (s : State) : Prop :=
  s.underWay →
    s.driveInRange ∧ s.timersOwned ∧ s.trimSound ∧ s.modeSound

/-! ## Spindle table and call table -/

/-- The states in which a spindle stands in the break list (R23). -/
def SpindleState.listed (st : SpindleState) : Prop :=
  st = .down ∨ st = .called ∨ st = .taken ∨ st = .runOut

/-- R22: call is present exactly in CALLED and TAKEN, held-from and held-mark exactly in HELD. -/
def SpindleRec.fieldsSound (r : SpindleRec) : Prop :=
  (r.call.isSome = true ↔ r.state = .called ∨ r.state = .taken) ∧ (r.heldFrom.isSome = true ↔ r.state = .held) ∧
    (r.heldMark.isSome = true ↔ r.state = .held)

/-- R23: the break list holds each spindle in a down state once and no other. -/
def State.breakListSound (s : State) : Prop :=
  s.table.breakList.Nodup ∧ ∀ n, n ∈ s.table.breakList ↔ ∃ r, s.spindle n = some r ∧ r.state.listed

/-- R63: each live call and the spindle it names agree, and no two live calls share a number or a spindle. -/
def State.callsSound (s : State) : Prop :=
  (s.pieces.calls.map (fun c => c.number)).Nodup ∧ (s.pieces.calls.map (fun c => c.spindle)).Nodup ∧
    (∀ c ∈ s.pieces.calls, ∃ r, s.spindle c.spindle = some r ∧ r.call = some c.number ∧
      r.state = (if c.state = .opened then .called else .taken)) ∧
    ∀ n r, s.spindle n = some r → ∀ k, r.call = some k → ∃ c ∈ s.pieces.calls, c.number = k ∧ c.spindle = n

/-- R64: the serial is no live call's number. -/
def State.serialUnused (s : State) : Prop := s.pieces.serial ∉ s.pieces.calls.map (fun c => c.number)

/-- R64: the serial lies in 1..65,535, in every phase. -/
def State.serialInRange (s : State) : Prop := 1 ≤ s.pieces.serial ∧ s.pieces.serial ≤ 65535

/-- The spindle table and the call table agree from the listening period on. -/
def State.tableSound (s : State) : Prop :=
  s.serialInRange ∧
    (s.underWay →
      (∀ n r, s.spindle n = some r → r.fieldsSound) ∧ s.breakListSound ∧ s.callsSound ∧ s.serialUnused)

/-! ## What a change of mode leaves (R92) -/

/-- The tally unit but for the send-failures count, which any notice handed to a full queue raises (R141, R167). -/
def TallyUnit.exceptSendFailures (u : TallyUnit) : TallyUnit :=
  { u with opened := { u.opened with counts := { u.opened.counts with sendFailures := 0 } } }

/-- R108: a claim made at a moment of part time with a last answer. -/
def Claim.madeAt (now : Nat) (answer : ClaimAnswer) : Claim :=
  { state := .claimed, position := none, eta := none, lastAnswer := answer, retries := 1,
    answerDue := some (now + 10000000), pause := none }

/-- A mode in which calls are opened (R66). -/
def opensCalls (m : FrameMode) : Prop := m = .running ∨ m = .restart

/-- The mode in which an entry to `new` ends: FULL-STOP with the ring rail at the doff position passes on (R95). -/
def State.endsIn (s : State) (new : FrameMode) : FrameMode :=
  if new = .fullStop ∧ s.pins.atDoff = true then .fullWait else new

/-- R70, R77, R84: the notice that ends a call without the sensor: CANCEL for an OPEN call, CLOSE with that reason code
to the carriage for any other (R202: 4 CANCELLED, 5 BLIND, 6 RUN-OUT). -/
def State.endingNotice (s : State) (reason : Byte) (c : Call) : Notice :=
  if c.state = .opened then
    { dst := 255, src := s.start.strap, kind := some .cancel, fresh := false, reference := c.number,
      payload := wordField c.spindle }
  else
    { dst := c.carriage.getD 0, src := s.start.strap, kind := some .close, fresh := false, reference := c.number,
      payload := wordField c.spindle ++ [reason] }

/-- R95, R108, R109: the DOFF-CLAIM of an entry to FULL-STOP, with that mode (log 30) and no last answer. -/
def State.fullStopClaim (s : State) : Notice :=
  { dst := s.cfg.dofferStation, src := s.start.strap, kind := some .doffClaim, fresh := false, reference := 0,
    payload := [BitVec.ofNat 8 s.start.strap, BitVec.ofNat 8 s.cfg.dofferGroup, 3#8] ++ wordField s.drive.fill ++
      wordField s.drive.measured ++ [0#8, 0#8] }

/-- The two bytes of the last answer in a DOFF-CLAIM: 0 none, 1 a queue position, 2 an eta (R202). -/
def ClaimAnswer.codes : ClaimAnswer → List Byte
  | .none => [0#8, 0#8]
  | .position n => [1#8, BitVec.ofNat 8 n]
  | .eta n => [2#8, BitVec.ofNat 8 n]

/-- R109, R202: the DOFF-CLAIM of a claim made now, with a last answer. -/
def State.doffClaim (s : State) (answer : ClaimAnswer) : Notice :=
  { dst := s.cfg.dofferStation, src := s.start.strap, kind := some .doffClaim, fresh := false, reference := 0,
    payload := [BitVec.ofNat 8 s.start.strap, BitVec.ofNat 8 s.cfg.dofferGroup,
        BitVec.ofNat 8 (modeCode s.frame.mode)] ++ wordField s.drive.fill ++ wordField s.drive.measured ++
      answer.codes }

/-- R108: a claim made now, with a last answer, its DOFF-CLAIM handed. -/
def State.claimed (s : State) (answer : ClaimAnswer) : State :=
  ({ s with frame := { s.frame with claim := Claim.madeAt s.clock answer, trim := 0 } } : State).hand (s.doffClaim answer)

/-- Some notices are handed one after another (R167). -/
def State.handAll (s : State) (notices : List Notice) : State := notices.foldl State.hand s

/-- R103: the measured forecast differs from the one the last FORECAST carried, as a FORECAST is built for. -/
def forecastDiffers (last : Option Nat) (measured : Nat) : Prop :=
  ∀ f, last = some f →
    f + 2 ≤ measured ∨ measured + 2 ≤ f ∨ (f ≠ measured ∧ (f = 999 ∨ measured = 999))

/-- R123: `a` goes ahead of `b`: the shorter time to run-out, an unknown one last, and among equals the lower section. -/
def SupplyRec.aheadOf (a b : SupplyRec) : Prop :=
  match a.time, b.time with
  | some x, some y => x < y ∨ (x = y ∧ a.creel ≤ b.creel)
  | some _, none => True
  | none, some _ => False
  | none, none => a.creel ≤ b.creel

/-- R123: `listed` is `recs` in the order in which they are divided into ROVING-ASK notices. -/
def inAskOrder (listed recs : List SupplyRec) : Prop := listed.Perm recs ∧ listed.Pairwise SupplyRec.aheadOf

/-- R64: the serial after `n`: the first of the values that follow it, 1 following 65,535, that names no live call. -/
def serialFollows (live : List Nat) (n next : Nat) : Prop :=
  next ∉ live ∧ ∃ k, next = (n + k) % 65535 + 1 ∧ ∀ j, j < k → (n + j) % 65535 + 1 ∈ live

/-- R64: the numbers that calls opened one after another take, from a serial to the serial that the last of them leaves. -/
def takesSerials (live : List Nat) (serial : Nat) : List Nat → Nat → Prop
  | [], last => last = serial
  | n :: numbers, last =>
    n = serial ∧ ∃ next, serialFollows (live ++ [n]) n next ∧ takesSerials (live ++ [n]) next numbers last

/-- R124, R202: a ROVING-ASK lists a section: the section's bit of the mask, section 1 first, stands at 1. -/
def Notice.lists (n : Notice) (creel : Nat) : Prop :=
  (n.payload.getD (1 + (creel - 1) / 8) 0#8).getLsbD (7 - (creel - 1) % 8) = true

/-- R92 with R54 to R56, R59, R81, R94, R95, R98, R103: `s'` is what a change of mode makes of `s`. The model's readings:
the DOFF-CLAIM of an entry to FULL-STOP stands behind the notices of the ended calls (log 38) and carries FULL-STOP (log
30), and the FORECAST carries the measured forecast as last computed (log 32). -/
def State.changedMode (s : State) (new : FrameMode) (reason : Option StopReason) (s' : State) : Prop :=
  s'.frame.mode = s.endsIn new ∧ s'.frame.reason = reason ∧
    s'.frame.graceDue = (if s.endsIn new = .restart then some (s.clock + 1000000 * s.cfg.restartGrace) else none) ∧
    s'.frame.positionDue =
      (if s.endsIn new = .fullStop then some (s.clock + 1000000 * s.cfg.positionTimeout) else none) ∧
    s'.frame.doffingDue =
      (if s.endsIn new = .doffing then some (s.clock + 60000000 * s.cfg.doffingTimeout) else none) ∧
    s'.frame.permitDropped = s.frame.permitDropped ∧ s'.frame.fullAt = s.frame.fullAt ∧
    s'.frame.doffStartAt = s.frame.doffStartAt ∧
    s'.frame.claim =
      (if new = .fullStop ∧ s.frame.claim.state = .none then Claim.madeAt s.clock .none else s.frame.claim) ∧
    (opensCalls s.frame.mode → ¬opensCalls new → s'.frame.trim = 0) ∧
    (new = .fullStop → s.frame.claim.state = .none → s'.frame.trim = 0) ∧
    ((opensCalls s.frame.mode → opensCalls new) → ¬(new = .fullStop ∧ s.frame.claim.state = .none) →
      s'.frame.trim = s.frame.trim) ∧
    (opensCalls new → s'.drive = s.drive.enterMode s.cfg s.frame.trim s.frame.mode new) ∧
    (¬opensCalls new → s'.drive =
      { s.drive with dutyWaiting := if s.endsIn new = .fullStop then dutyOf s.cfg s.drive.speed else 0 }) ∧
    s'.frame.lastForecast = some s.drive.measured ∧
    s'.frame.forecastDue = some (s.clock + 60000000 * s.cfg.forecastInterval) ∧
    (s'.forecastNotice ∈ s'.line.routine ∨ 12 ≤ s'.line.routine.length) ∧
    (opensCalls s.frame.mode → ¬opensCalls new →
      s'.pieces.calls = [] ∧
        ∀ n r, s.spindle n = some r → (r.state = .called ∨ r.state = .taken) →
          n ∈ s.pieces.calls.map (fun c => c.spindle) →
          s'.spindle n = some { r with state := .down, call := none, notBefore := none }) ∧
    ((opensCalls s.frame.mode → opensCalls new) → s'.pieces = s.pieces ∧ s'.table = s.table) ∧
    (∀ n, n ∉ s.pieces.calls.map (fun c => c.spindle) → s'.spindle n = s.spindle n) ∧
    (∃ ended : List Call, (opensCalls s.frame.mode → ¬opensCalls new → ended.Perm s.pieces.calls) ∧
      ((opensCalls s.frame.mode → opensCalls new) → ended = []) ∧
      ended.Pairwise (fun a b => a.openedAt ≤ b.openedAt) ∧
      ∀ notices, notices = ended.map (s.endingNotice 4#8) ++
          (if new = .fullStop ∧ s.frame.claim.state = .none then [s.fullStopClaim] else []) ++ [s'.forecastNotice] →
        s'.line = (s.handAll notices).line ∧ s'.tally = (s.handAll notices).tally) ∧
    s'.table.breakList = s.table.breakList ∧ s'.pieces.serial = s.pieces.serial ∧ s'.chain = s.chain ∧
    s'.roving = s.roving ∧ s'.tally.exceptSendFailures = s.tally.exceptSendFailures ∧ s'.start = s.start ∧
    s'.pins = s.pins ∧ s'.clock = s.clock ∧ s'.pending = s.pending

/-! ## Passes and modules -/

/-- R3, R7, R18: a pass has started at this moment: a sense pass pulses the side's load output, a drive pass forms the
lamp and clamp bits from the spindle states. -/
def State.begun (s : State) (p : Pass) : State :=
  let started : ChainUnit := s.chain.withSide p.side
    { s.chain.side p.side with
      loadedAt := if p.kind = .sense then some s.clock else (s.chain.side p.side).loadedAt }
  let bits := if p.kind = .drive then (s.spindlesOf p.side).filterMap (fun n =>
    (s.spindle n).map (fun r => driveBitsOf r.state (s.clock / 1000))) else []
  { s with chain := { started with
      queue := s.chain.queue.erase p
      flight := some { pass := p, since := s.clock, frames := [], bits := bits }
      lastServed := p.side } }

/-- The eight spindles of module m of a side, in order of position (R1). -/
def State.spindlesIn (s : State) (side : Side) (m : Nat) : List Nat :=
  (List.range 8).map (fun q => s.sideBase side + 8 * (m - 1) + q + 1)

/-- Module m of a side has a new record (R10 to R12). -/
def State.moduleSet (s : State) (side : Side) (m : Nat) (v : ModuleRec) : State :=
  { s with
    chain := s.chain.withSide side
      { s.chain.side side with modules := (s.chain.side side).modules.set (m - 1) v } }

/-- Module m of a side has a new record, and the readings of the pass are the last readings of its spindles (R10). -/
def State.moduleRead (s : State) (side : Side) (m : Nat) (v : ModuleRec) (yarn : List Bool) : State :=
  let first := s.sideBase side + 8 * (m - 1)
  { s.moduleSet side m v with
    chain := { (s.moduleSet side m v).chain with
      readings := s.chain.readings.mapIdx (fun k old =>
        if first ≤ k ∧ k < first + 8 then yarn.getD (k - first) old else old) } }

/-- The run counters of some spindles are 0 (R11, R15). -/
def State.runsCleared (s : State) (spindles : List Nat) : State :=
  { s with table := { s.table with recs := s.table.recs.mapIdx (fun k r =>
      if k + 1 ∈ spindles then { r with run := 0 } else r) } }

/-- The spindle table takes one report of debounce: declared up, declared down, or none (R16, R25, R26). -/
def State.reported (s : State) (n : Nat) (report : Option Bool) : State :=
  match report with
  | some true => s.declareUp n
  | some false => s.declareDown n
  | none => s

/-! ## What a command may change -/

/-- The commands of the seven inputs, with their moment, the input and the level it changes to (R90, R204). -/
def movesInput (c : Instr) : Option (Nat × Input × Bool) :=
  match c with
  | .runPermitRise t => some (t, .runPermit, true)
  | .runPermitFall t => some (t, .runPermit, false)
  | .stopButton t => some (t, .stop, true)
  | .driveFault t => some (t, .driveFault, true)
  | .driveFaultClears t => some (t, .driveFault, false)
  | .atDoffPosition t => some (t, .atDoff, true)
  | .atDoffPositionClears t => some (t, .atDoff, false)
  | .doffDoneButton t => some (t, .doffDone, true)
  | .sideClearPress t .A => some (t, .clearA, true)
  | .sideClearPress t .B => some (t, .clearB, true)
  | .buttonRelease t .stop => some (t, .stop, false)
  | .buttonRelease t .doffDone => some (t, .doffDone, false)
  | .buttonRelease t .clearA => some (t, .clearA, false)
  | .buttonRelease t .clearB => some (t, .clearB, false)
  | _ => none

/-- The supply, the reset pin and the two steps of a start. -/
def begins (c : Instr) : Bool :=
  match c with
  | .powerOn _ => true
  | .resetAssert _ => true
  | .resetRelease _ => true
  | .configurationReadEnd _ _ => true
  | .becomingActive _ => true
  | .supplyLost => true
  | _ => false

/-- The commands in which a block may take a notice of the inbound queue (R176, R178). -/
def handsOver (c : Instr) : Bool :=
  match c with
  | .receiveFrameEnd _ _ => true
  | .blockBusyEnds _ _ => true
  | _ => false

/-- The commands of an input, a timer or a notice that may change the frame mode (R93 to R100). -/
def movesMode (c : Instr) : Bool :=
  match c with
  | .runPermitRise _ => true
  | .runPermitFall _ => true
  | .stopButton _ => true
  | .driveFault _ => true
  | .atDoffPosition _ => true
  | .doffDoneButton _ => true
  | .restartGrace _ => true
  | .positionTimeout _ => true
  | .doffingTimeout _ => true
  | .doffStart _ _ => true
  | .doffEnd _ _ => true
  | .doffAbort _ _ => true
  | _ => false

/-- The commands of the seven local inputs and of the reset pin, and those that begin the inputs' filter afresh (R90, R196,
R204). -/
def movesPins (c : Instr) : Bool :=
  match c with
  | .powerOn _ => true
  | .resetAssert _ => true
  | .resetRelease _ => true
  | .supplyLost => true
  | .runPermitRise _ => true
  | .runPermitFall _ => true
  | .stopButton _ => true
  | .driveFault _ => true
  | .driveFaultClears _ => true
  | .atDoffPosition _ => true
  | .atDoffPositionClears _ => true
  | .doffDoneButton _ => true
  | .sideClearPress _ _ => true
  | .buttonRelease _ _ => true
  | _ => false

/-- The commands that may change the chain engine. -/
def movesChain (c : Instr) : Bool :=
  match c with
  | .scanTimerExpiry _ _ => true
  | .moduleFrameReceived _ _ => true
  | .sensePassEnd _ _ => true
  | .drivePassEnd _ => true
  | .frontRollerPulse _ => true
  | _ => begins c

/-- The commands that may change the delivery and drive unit. -/
def movesDrive (c : Instr) : Bool :=
  match c with
  | .frontRollerPulse _ => true
  | .rollerStopsTurning _ => true
  | .updateTick _ => true
  | .pwmPeriodStart _ => true
  | _ => begins c || handsOver c || movesMode c

/-- The commands that may change the frame and doff unit. -/
def movesFrame (c : Instr) : Bool :=
  match c with
  | .frontRollerPulse _ => true
  | .updateTick _ => true
  | .doffQueued _ _ _ => true
  | .doffGrant _ _ _ => true
  | .forecastInterval _ => true
  | .claimAnswerWait _ => true
  | .claimPause _ => true
  | .hello _ _ _ _ _ => true
  | _ => begins c || handsOver c || movesMode c

/-- The commands that may change the spindle table. -/
def movesTable (c : Instr) : Bool :=
  match c with
  | .sensePassEnd _ _ => true
  | .sideClearPress _ _ => true
  | .unlock _ _ => true
  | .frontRollerPulse _ => true
  | .updateTick _ => true
  | .withdrawnUntaken _ _ => true
  | .take _ _ _ _ => true
  | .done _ _ _ _ _ _ => true
  | .piecingTimeout _ _ => true
  | .verifyWindowCloses _ _ => true
  | .rovingLaid _ _ _ _ => true
  | .shiftChange _ _ _ _ _ => true
  | _ => begins c || handsOver c || movesMode c

/-- The commands that may change the piecing dispatcher. -/
def movesPieces (c : Instr) : Bool :=
  match c with
  | .sensePassEnd _ _ => true
  | .frontRollerPulse _ => true
  | .updateTick _ => true
  | .callRepeat _ _ => true
  | .withdrawnUntaken _ _ => true
  | .take _ _ _ _ => true
  | .done _ _ _ _ _ _ => true
  | .piecingTimeout _ _ => true
  | .verifyWindowCloses _ _ => true
  | _ => begins c || handsOver c || movesMode c

/-- The commands that may change the roving unit. -/
def movesRoving (c : Instr) : Bool :=
  match c with
  | .sensePassEnd _ _ => true
  | .updateTick _ => true
  | .done _ _ _ _ _ _ => true
  | .batchTimer _ => true
  | .rovingAnswerWait _ => true
  | .rovingAck _ _ _ _ => true
  | .etaExpiry _ => true
  | .rovingDefer _ _ _ _ => true
  | .deferralEnd _ => true
  | .rovingLaid _ _ _ _ => true
  | .hello _ _ _ _ _ => true
  | _ => begins c || handsOver c

/-- The commands that hand no notice and raise no count. -/
def silent (c : Instr) : Bool :=
  match c with
  | .moduleFrameReceived _ _ => true
  | .drivePassEnd _ => true
  | .sideClearPress _ _ => true
  | .rollerStopsTurning _ => true
  | .pwmPeriodStart _ => true
  | .driveFaultClears _ => true
  | .atDoffPositionClears _ => true
  | .buttonRelease _ _ => true
  | _ => false

/-- The notices that are taken without an answer and without a count: their block becomes busy, and no more changes in
the line unit. -/
def quiet (c : Instr) : Bool :=
  match c with
  | .unlock _ _ => true
  | .doffQueued _ _ _ => true
  | .doffGrant _ _ _ => true
  | .rovingAck _ _ _ _ => true
  | .rovingDefer _ _ _ _ => true
  | .rovingLaid _ _ _ _ => true
  | _ => false

/-- The rows that are the taking of a handed notice, with their moment and the block that takes it (R176, log 11). -/
def takenBy (c : Instr) : Option (Nat × Block) :=
  match c with
  | .unlock t _ => some (t, .spindleTable)
  | .take t _ _ _ => some (t, .dispatcher)
  | .done t _ _ _ _ _ => some (t, .dispatcher)
  | .doffStart t _ => some (t, .frameDoff)
  | .doffEnd t _ => some (t, .frameDoff)
  | .doffAbort t _ => some (t, .frameDoff)
  | .doffQueued t _ _ => some (t, .frameDoff)
  | .doffGrant t _ _ => some (t, .frameDoff)
  | .rovingAck t _ _ _ => some (t, .roving)
  | .rovingDefer t _ _ _ => some (t, .roving)
  | .rovingLaid t _ _ _ => some (t, .roving)
  | .shiftChange t _ _ _ _ => some (t, .tally)
  | .tallyQuery t _ _ => some (t, .tally)
  | _ => none

end Sys2Proof.Machine
end

