-- ==== Sys2Proof/Certificates/Slice0/Obligations.lean ====
section
/-! DEFINITION. The statements for the provers. `s.later t` is the state as a command of moment `t` finds it. -/

open Sys2Proof Sys2Proof.Machine

/-! ## Steps and starts -/

/-- A step carries out the command at the front of the queue on the queue's rest; on an empty queue the block idles
(the model's choice, log 1). -/
def Obligations.StepRunsFrontCommand : Prop :=
  (∀ (c : Instr) (rest : List Instr) (s : State),
      step { s with pending := c :: rest } = exec c { s with pending := rest }) ∧
    ∀ s : State, s.pending = [] → step s = .next s

/-- POWER_ON and SUPPLY_LOST write the cold value of every piece of state, retained memory included (R195, R198, R199);
and those values: of the chain engine (R20), the drive unit (R61), the frame unit and the claim (R111, R115), the line unit
(R187) and the whole state after reset. The model's own among them are the first PWM period at part time 0 (log 15) and the
settings, image, profile, speed and verify window before any read (log 18). What stands outside the part is kept: the
commands that wait, the levels at the pins, the module outputs (log 22), with `freeUses`, the counter that a free value is
applied to (log 7); the filter of the pins begins afresh (log 36). Supply that comes while the reset pin is asserted leaves
the part in reset with its cold values (log 39).
The last clause fixes `State.reset` whole and so is the model's choice, not the spec's, in these fields beside those of
logs 15 and 18: the moment before the read, with strap value 0 and so generator 0 (log 4); the level inputs low and the
reset pin released (log 5; that an open button reads released is R204's); no module outputs taken yet (log 6); `freeUses`
0, a field of the model's own (log 7); `minutesBegun` 0, the model's own count for R199 (log 19); an empty queue of
commands, the model's own (log 1). -/
def Obligations.PowerOnAndSupplyLossGiveColdValues : Prop :=
  (∀ (strap : Nat) (s cold : State), cold =
      { State.reset with
        pending := s.pending
        freeUses := s.freeUses
        pins := { s.pins with changes := PinChanges.none }
        start := { State.reset.start with phase := .reading, strap := strap }
        chain := ChainUnit.fresh 0 0 s.chain.sideA.outputs s.chain.sideB.outputs
        line := LineUnit.fresh strap 0 } →
    (s.pins.reset = false → exec (.powerOn strap) s = .next cold) ∧
    (s.pins.reset = true → exec (.powerOn strap) s = .next
      { cold with start := { cold.start with phase := .inReset, fresh := false } })) ∧
    (∀ s : State, exec .supplyLost s = .next
      { State.reset with
        pending := s.pending
        freeUses := s.freeUses
        pins := { s.pins with changes := PinChanges.none }
        start := { State.reset.start with phase := .off, strap := s.start.strap }
        chain := ChainUnit.fresh 0 0 s.chain.sideA.outputs s.chain.sideB.outputs
        line := LineUnit.fresh s.start.strap 0 }) ∧
    (∀ (a b : Nat) (outA outB : List DriveBits), ∀ side : Nat → List DriveBits → SideChain,
      side = (fun n outputs => { scanDue := none, modules := List.replicate n ⟨0, 0, false⟩, trailerMissing := 0,
                                 loadedAt := none, latchedAt := none, outputs := outputs }) →
      ChainUnit.fresh a b outA outB =
        { sideA := side a outA, sideB := side b outB, queue := [], flight := none, lastServed := .B,
          readings := List.replicate (8 * (a + b)) false, rollerBegan := none }) ∧
    (∀ speed pwm : Nat, DriveUnit.fresh speed pwm =
      { remainder := 0, d := 0, copMark := 0, tickMark := 0, buckets := [], eligible := false, rate := none,
        turning := false, lastPulse := 0, fullLatch := false, fill := 0, measured := 999, natural := 999,
        trimGiven := 0, speed := speed, dutyWaiting := 0, dutyRunning := 0, pwmNext := pwm, tickDue := none }) ∧
    (∀ idle : Claim, idle = { state := .none, position := none, eta := none, lastAnswer := .none, retries := 0,
                              answerDue := none, pause := none } →
      Claim.idle = idle ∧ FrameUnit.fresh =
        { mode := .halted, reason := none, permitDropped := false, fullAt := none, doffStartAt := none,
          graceDue := none, positionDue := none, doffingDue := none, claim := idle, trim := 0, forecastDue := none,
          lastForecast := none }) ∧
    (∀ strap now : Nat, LineUnit.fresh strap now =
      { urgent := [], routine := [], flight := none, pacing := 0, lfsr := BitVec.ofNat 16 (257 * strap),
        inbound := [],
        busy := { spindleTable := none, dispatcher := none, frameDoff := none, roving := none, tally := none },
        ownHold := none, peers := [], clash := 0, isolated := false, isolationStart := now, lastTransition := now,
        receiving := false }) ∧
    State.reset =
      { pending := [], clock := 0, minutesBegun := 0, freeUses := 0,
        start := { phase := .reading, phaseStart := 0, fresh := true, strap := 0, image := [],
                   settings := Settings.unread, keptA := 0, keptB := 0 },
        pins := { reset := false, runPermit := false, driveFault := false, atDoff := false, stop := false,
                  doffDone := false, clearA := false, clearB := false, changes := PinChanges.none },
        chain := ChainUnit.fresh 0 0 [] [],
        table := { recs := [], breakList := [], heldA := 0, heldB := 0 },
        pieces := { calls := [], serial := 1, verifyInUse := 0 },
        drive := DriveUnit.fresh 0 0,
        frame := FrameUnit.fresh,
        roving := { recs := [], batchDue := none, askSeq := 1 },
        tally := { opened := { number := 1, openedAt := 0, stamp := none, dOpen := 0,
                               counts := ⟨0, 0, 0, 0, 0, 0, 0, 0, 0, 0, 0, 0, 0, 0⟩,
                               sideA := ⟨0, 0, 0, 0, 0, 0, 0, 0⟩, sideB := ⟨0, 0, 0, 0, 0, 0, 0, 0⟩ },
                   ring := [] },
        line := LineUnit.fresh 0 0 }

/-- R162: the tally unit after a cold start. -/
def Obligations.ColdStartBeginsShiftOne : Prop :=
  ∀ (strap : Nat) (s : State), ∃ s', exec (.powerOn strap) s = .next s' ∧ s'.tally.ring = [] ∧
    s'.tally.opened.number = 1 ∧ s'.tally.opened.openedAt = 0 ∧ s'.tally.opened.stamp = none ∧
    s'.tally.opened.dOpen = 0#32 ∧ s'.tally.opened.counts = ⟨0, 0, 0, 0, 0, 0, 0, 0, 0, 0, 0, 0, 0, 0⟩ ∧
    s'.tally.opened.sideA = ⟨0, 0, 0, 0, 0, 0, 0, 0⟩ ∧ s'.tally.opened.sideB = ⟨0, 0, 0, 0, 0, 0, 0, 0⟩

/-- R196, R198: RESET_ASSERT keeps retained memory and loses the rest: the next state whole, each field of R198 as it
stood and every other at its start value. The model's own among them: the PWM periods run from the assertion on (log 15),
the settings, the speed and the verify window are unread until the next read (log 18), what stands outside the part is kept
(log 22), the strap register and the generator seeded from it until the release (log 34), and the filter of the pins begins
afresh (log 36). RESET_RELEASE reads the straps and begins the configuration read with part time where it stopped (R199).
The level of the pin is kept in every phase, with no filter (R204), and moves nothing more where there is no supply, where
the part is in reset already, or where it is out of reset already. -/
def Obligations.ResetKeepsRetainedMemory : Prop :=
  (∀ (t : Nat) (s : State), s.start.phase ≠ .off → s.start.phase ≠ .inReset →
      exec (.resetAssert t) s = .next
        { State.reset with
          pending := s.pending
          clock := max s.clock t
          minutesBegun := s.minutesBegun
          freeUses := s.freeUses
          start := { State.reset.start with phase := .inReset, phaseStart := max s.clock t, fresh := false,
                                            strap := s.start.strap, keptA := s.start.keptA, keptB := s.start.keptB }
          pins := { s.pins with reset := true, changes := PinChanges.none }
          chain := ChainUnit.fresh 0 0 s.chain.sideA.outputs s.chain.sideB.outputs
          table :=
            { recs := s.table.recs.map (fun r =>
                { state := r.state, run := 0, attempts := r.attempts, breaks := r.breaks, upMark := 0#32,
                  length := r.length, downSince := 0, notBefore := none, call := none, heldFrom := r.heldFrom,
                  heldMark := none })
              breakList := [], heldA := s.table.heldA, heldB := s.table.heldB }
          pieces := { calls := [], serial := s.pieces.serial, verifyInUse := 0 }
          drive := { DriveUnit.fresh 0 (max s.clock t) with
                     remainder := s.drive.remainder, d := s.drive.d, copMark := s.drive.copMark }
          frame := FrameUnit.fresh
          roving :=
            { recs := s.roving.recs.map (fun r =>
                { creel := r.creel, state := r.state, laidMark := r.laidMark, laidLength := r.laidLength,
                  remaining := r.laidLength, time := none, asks := 0, retryAt := none, eta := none, breaks := [] })
              batchDue := none, askSeq := 1 }
          tally := s.tally
          line := LineUnit.fresh s.start.strap (max s.clock t) }) ∧
    (∀ (t : Nat) (s : State), (s.start.phase = .off ∨ s.start.phase = .inReset) →
      exec (.resetAssert t) s = .next { s with pins := { s.pins with reset := true } }) ∧
    (∀ (strap : Nat) (s : State), s.start.phase = .inReset → exec (.resetRelease strap) s = .next
      { s with
        start := { s.start with phase := .reading, phaseStart := s.clock, fresh := false, strap := strap }
        pins := { s.pins with reset := false }
        line := LineUnit.fresh strap s.clock }) ∧
    ∀ (strap : Nat) (s : State), s.start.phase ≠ .inReset →
      exec (.resetRelease strap) s = .next { s with pins := { s.pins with reset := false } }

/-- R194 (with R21, R60, R89, R117, R140, R164, R189): in configuration fault no command but a start, the reset pin and
the supply changes anything but part time, the frame minutes begun and the levels of the pins. -/
def Obligations.ConfigurationFaultHoldsEveryBlock : Prop :=
  ∀ (c : Instr) (s : State), s.start.phase = .configFault → (∀ strap, c ≠ .powerOn strap) → c ≠ .supplyLost →
    (∀ t, c ≠ .resetAssert t) →
    ∃ clock minutes pins, s.clock ≤ clock ∧ s.minutesBegun ≤ minutes ∧
      exec c s = .next { s with clock := clock, minutesBegun := minutes, pins := pins }

/-- R191, R193, R195 step 3: at the end of the read of a good configuration the blocks take their start values from it
(R61, R62, R80, R88, R115, R116, R187) and the listening period begins. Read from the spec by the model: the full latch is
set when the start finds fill 1000 (log 14), the moment of the next PWM period is kept (log 15), and bytes that were not
presented read as all ones (log 17). -/
def Obligations.GoodConfigurationBeginsListening : Prop :=
  (∀ presented : List Byte, imageOf presented = (List.range 128).map (fun k => presented.getD k 255#8)) ∧
    ∀ (t : Nat) (presented : List Byte) (s : State), s.start.phase = .reading →
    s.start.phaseStart + 10560 ≤ max s.clock t → configurationGood s.start.strap (imageOf presented) = true →
    ∀ c, c = settingsOf (imageOf presented) → ∀ fill,
      fill = min 1000 (1000 * (s.drive.d - s.drive.copMark).toNat / (10 * c.copLength)) →
    ∃ s', exec (.configurationReadEnd t presented) s = .next s' ∧
      s'.start = { s.start with phase := .listening, phaseStart := max s.clock t, image := imageOf presented,
                                settings := c, keptA := c.sectionsA, keptB := c.sectionsB } ∧
      s'.drive = { remainder := if c.pulses * 10000 ≤ s.drive.remainder then 0 else s.drive.remainder
                   d := s.drive.d, copMark := s.drive.copMark, tickMark := s.drive.d, buckets := [],
                   eligible := false, rate := none, turning := false, lastPulse := 0,
                   fullLatch := fill == 1000, fill := fill, measured := if fill = 1000 then 0 else 999,
                   natural := if fill = 1000 then 0 else 999, trimGiven := 0, speed := c.sMin, dutyWaiting := 0, dutyRunning := 0,
                   pwmNext := s.drive.pwmNext, tickDue := none } ∧
      s'.frame = { FrameUnit.fresh with
                   fullAt := if fill = 1000 then some (max s.clock t / 1000000) else none } ∧
      s'.pieces = { calls := [], serial := s.pieces.serial,
                    verifyInUse := max (1000 * c.verifyWindow) ((c.kUp + 1) * c.scanInterval) } ∧
      s'.chain = ChainUnit.fresh (3 * c.sectionsA) (3 * c.sectionsB) s.chain.sideA.outputs s.chain.sideB.outputs ∧
      s'.line = LineUnit.fresh s.start.strap (max s.clock t) ∧ s'.tally = s.tally ∧ s'.pins = s.pins ∧
      s'.clock = max s.clock t ∧ s'.minutesBegun = s.minutesBegun ∧ s'.pending = s.pending

/-- R39, R40: the spindle records after a start with a good configuration. -/
def Obligations.StartSetsSpindleRecords : Prop :=
  ∀ (t : Nat) (presented : List Byte) (s : State), s.start.phase = .reading →
    s.start.phaseStart + 10560 ≤ max s.clock t → configurationGood s.start.strap (imageOf presented) = true →
    ∀ c, c = settingsOf (imageOf presented) →
    ∃ s', exec (.configurationReadEnd t presented) s = .next s' ∧ s'.table.breakList = [] ∧
      s'.table.heldA = s.table.heldA ∧ s'.table.heldB = s.table.heldB ∧
      (¬(s.start.keptA = c.sectionsA ∧ s.start.keptB = c.sectionsB) →
        s'.table.recs.length = 24 * (c.sectionsA + c.sectionsB) ∧
          ∀ r ∈ s'.table.recs, r = { state := .up, run := 0, attempts := 0, breaks := 0, upMark := s.drive.d,
                                     length := 0, downSince := 0, notBefore := none, call := none,
                                     heldFrom := none, heldMark := none }) ∧
      (s.start.keptA = c.sectionsA → s.start.keptB = c.sectionsB →
        s'.table.recs.length = s.table.recs.length ∧
          ∀ n r, s.spindle n = some r → ∃ r', s'.spindle n = some r' ∧ r'.run = 0 ∧ r'.breaks = r.breaks ∧
            r'.length = r.length ∧ r'.downSince = 0 ∧ r'.notBefore = none ∧ r'.call = none ∧ r'.heldFrom = none ∧
            r'.heldMark = none ∧
            (if r.state = .locked ∨ (r.state = .held ∧ r.heldFrom = some .locked) ∨ c.maxAttempts ≤ r.attempts then
              r'.state = .locked ∧ r'.attempts = c.maxAttempts
            else r'.state = .up ∧ r'.attempts = r.attempts ∧ r'.upMark = s.drive.d))

/-- R138, R139: the supply records after a start with a good configuration; scanning begins 2 s after the read. -/
def Obligations.StartSetsSupplyRecords : Prop :=
  ∀ (t : Nat) (presented : List Byte) (s : State), s.start.phase = .reading →
    s.start.phaseStart + 10560 ≤ max s.clock t → configurationGood s.start.strap (imageOf presented) = true →
    ∀ c, c = settingsOf (imageOf presented) →
    ∃ s', exec (.configurationReadEnd t presented) s = .next s' ∧ s'.roving.batchDue = none ∧ s'.roving.askSeq = 1 ∧
      (¬(s.start.keptA = c.sectionsA ∧ s.start.keptB = c.sectionsB) →
        s'.roving.recs.map (fun r => r.creel) =
            (List.range c.sectionsA).map (fun k => k + 1) ++ (List.range c.sectionsB).map (fun k => k + 25) ∧
          ∀ r ∈ s'.roving.recs, r.state = .none ∧ r.laidMark = s.drive.d ∧ r.laidLength = 10 * c.laidMetres ∧
            r.remaining = 10 * c.laidMetres ∧ r.time = none ∧ r.asks = 0 ∧ r.retryAt = none ∧ r.eta = none ∧
            r.breaks = []) ∧
      (s.start.keptA = c.sectionsA → s.start.keptB = c.sectionsB →
        s'.roving.recs = s.roving.recs.map (fun r =>
          let remaining := r.laidLength - (s.drive.d - r.laidMark).toNat * 100 / c.draft
          let state : SupplyState :=
            if r.state = .none then .none else if r.state ≠ .runOut then .due
            else if remaining = 0 then .runOut else .none
          { creel := r.creel, state := state, laidMark := r.laidMark, laidLength := r.laidLength,
            remaining := remaining, time := if remaining = 0 then some 0 else none, asks := 0,
            retryAt := if state = .runOut then some ((max s.clock t + 2000000) / 1000) else none, eta := none,
            breaks := [] }))

/-- R190, R191, R193: what makes a configuration good; and a start that finds it otherwise ends in configuration fault,
with everything but the start's own phase and image as it stood (R194). -/
def Obligations.FaultyConfigurationStopsTheStart : Prop :=
  (∀ (strap : Nat) (image : List Byte), image.length = 128 → ∀ c, c = settingsOf image →
      (configurationGood strap image = true ↔
        (1 ≤ strap ∧ strap ≤ 239) ∧ (image.getD 0 0#8).toNat = 1 ∧ (image.map (fun b => b.toNat)).sum % 256 = 0 ∧
        (1 ≤ (image.getD 1 0#8).toNat ∧ (image.getD 1 0#8).toNat ≤ 24) ∧ (image.getD 2 0#8).toNat ≤ 24 ∧
        (image.getD 3 0#8).toNat ≤ 3 ∧ (image.getD 4 0#8).toNat ≤ 2 ∧ 1 ≤ (image.getD 5 0#8).toNat ∧
        (∀ k, k = 6 ∨ k = 7 → 1 ≤ (image.getD k 0#8).toNat ∧ (image.getD k 0#8).toNat ≤ 239 ∧
          (image.getD k 0#8).toNat ≠ strap) ∧
        (2 ≤ (image.getD 21 0#8).toNat ∧ (image.getD 21 0#8).toNat ≤ 8) ∧
        (c.profile.map (fun p => p.fill)).head? = some 0 ∧
        (c.profile.map (fun p => p.fill)).Pairwise (fun f g => f < g) ∧ c.sMin ≤ c.sMax ∧ c.sMax ≤ c.sFull)) ∧
    ∀ (t : Nat) (presented : List Byte) (s : State), s.start.phase = .reading →
      s.start.phaseStart + 10560 ≤ max s.clock t → configurationGood s.start.strap (imageOf presented) = false →
      exec (.configurationReadEnd t presented) s = .next
        { s.later t with start := { s.start with phase := .configFault, phaseStart := max s.clock t,
                                                 image := imageOf presented } }

/-- R192, R203: the clamp of a tuning field; for every field of every image its address, its range and its default; and
that every tuning field lies within its range. -/
def Obligations.TuningFieldsAreClamped : Prop :=
  (∀ allOnes low high d v : Nat, low ≤ high →
      clamp allOnes low high (some d) v =
        (if v = allOnes then d else if v < low then low else if high < v then high else v)) ∧
    (∀ allOnes low high v : Nat, low ≤ high →
      clamp allOnes low high none v = (if v < low then low else if high < v then high else v)) ∧
    (∀ (image : List Byte) (c : Settings), c = settingsOf image →
      ∀ byte word : Nat → Nat, byte = (fun k => (image.getD k 0#8).toNat) →
        word = (fun k => 256 * (image.getD k 0#8).toNat + (image.getD (k + 1) 0#8).toNat) →
      (c.sectionsA = byte 1 ∧ c.sectionsB = byte 2 ∧ c.chainClock = byte 3 ∧ c.lineRate = byte 4 ∧
        c.dofferGroup = byte 5 ∧ c.dofferStation = byte 6 ∧ c.railStation = byte 7) ∧
      (c.scanInterval = clamp 255 20 250 (some 50) (byte 8) ∧ c.kDown = clamp 255 2 8 (some 3) (byte 9) ∧
        c.kUp = clamp 255 1 8 (some 2) (byte 10) ∧ c.detectDelay = clamp 255 1 30 (some 5) (byte 11) ∧
        c.pulses = clamp 255 1 64 none (byte 12) ∧ c.circumference = clamp 65535 5000 15000 none (word 13) ∧
        c.draft = clamp 65535 1000 8000 none (word 15) ∧ c.tex = clamp 65535 300 20000 none (word 17) ∧
        c.copLength = clamp 65535 500 20000 none (word 19)) ∧
      (c.profile = (List.range (min 8 (byte 21))).map (fun k =>
          ⟨clamp 65535 0 1000 none (word (22 + 4 * k)), clamp 65535 3000 25000 none (word (24 + 4 * k))⟩) ∧
        c.sMin = clamp 65535 3000 25000 none (word 54) ∧ c.sMax = clamp 65535 3000 25000 none (word 56) ∧
        c.sFull = clamp 65535 10000 30000 none (word 58) ∧ c.rampStep = clamp 65535 50 2000 (some 500) (word 60) ∧
        c.maxTrim = clamp 255 0 100 (some 60) (byte 62)) ∧
      (c.openCallLimit = clamp 255 1 8 (some 4) (byte 63) ∧ c.settleTime = clamp 255 0 60 (some 5) (byte 64) ∧
        c.repeatInterval = clamp 255 5 60 (some 15) (byte 65) ∧
        c.piecingTimeout = clamp 255 10 180 (some 60) (byte 66) ∧
        c.verifyWindow = clamp 255 1 10 (some 3) (byte 67) ∧ c.recallDelay = clamp 65535 5 300 (some 30) (word 68) ∧
        c.maxAttempts = clamp 255 1 7 (some 3) (byte 70)) ∧
      (c.restartGrace = clamp 65535 30 600 (some 120) (word 71) ∧
        c.positionTimeout = clamp 65535 30 300 (some 90) (word 73) ∧
        c.doffingTimeout = clamp 255 5 30 (some 12) (byte 75) ∧
        c.forecastInterval = clamp 255 1 15 (some 2) (byte 76) ∧ c.slotWidth = clamp 255 5 40 (some 15) (byte 77) ∧
        c.claimFill = clamp 65535 900 999 (some 970) (word 78) ∧ c.dofferLead = clamp 255 0 30 (some 10) (byte 80)) ∧
      (c.railLead = clamp 255 10 240 (some 60) (byte 81) ∧ c.lookahead = clamp 255 0 120 (some 30) (byte 82) ∧
        c.batchDelay = clamp 65535 0 300 (some 60) (word 83) ∧ c.clusterCount = clamp 255 3 12 (some 6) (byte 85) ∧
        c.laidMetres = clamp 65535 100 9000 (some 1800) (word 86) ∧
        c.rogueThreshold = clamp 255 2 50 (some 8) (byte 88) ∧
        c.holdThreshold = clamp 255 3 8 (some 5) (byte 89))) ∧
    ∀ (image : List Byte) (c : Settings), c = settingsOf image →
      (20 ≤ c.scanInterval ∧ c.scanInterval ≤ 250) ∧ (2 ≤ c.kDown ∧ c.kDown ≤ 8) ∧ (1 ≤ c.kUp ∧ c.kUp ≤ 8) ∧
      (1 ≤ c.detectDelay ∧ c.detectDelay ≤ 30) ∧ (1 ≤ c.pulses ∧ c.pulses ≤ 64) ∧
      (5000 ≤ c.circumference ∧ c.circumference ≤ 15000) ∧ (1000 ≤ c.draft ∧ c.draft ≤ 8000) ∧
      (300 ≤ c.tex ∧ c.tex ≤ 20000) ∧ (500 ≤ c.copLength ∧ c.copLength ≤ 20000) ∧
      (∀ p ∈ c.profile, p.fill ≤ 1000 ∧ 3000 ≤ p.speed ∧ p.speed ≤ 25000) ∧
      (3000 ≤ c.sMin ∧ c.sMin ≤ 25000) ∧ (3000 ≤ c.sMax ∧ c.sMax ≤ 25000) ∧ (10000 ≤ c.sFull ∧ c.sFull ≤ 30000) ∧
      (50 ≤ c.rampStep ∧ c.rampStep ≤ 2000) ∧ c.maxTrim ≤ 100 ∧ (1 ≤ c.openCallLimit ∧ c.openCallLimit ≤ 8) ∧
      c.settleTime ≤ 60 ∧ (5 ≤ c.repeatInterval ∧ c.repeatInterval ≤ 60) ∧
      (10 ≤ c.piecingTimeout ∧ c.piecingTimeout ≤ 180) ∧ (1 ≤ c.verifyWindow ∧ c.verifyWindow ≤ 10) ∧
      (5 ≤ c.recallDelay ∧ c.recallDelay ≤ 300) ∧ (1 ≤ c.maxAttempts ∧ c.maxAttempts ≤ 7) ∧
      (30 ≤ c.restartGrace ∧ c.restartGrace ≤ 600) ∧ (30 ≤ c.positionTimeout ∧ c.positionTimeout ≤ 300) ∧
      (5 ≤ c.doffingTimeout ∧ c.doffingTimeout ≤ 30) ∧ (1 ≤ c.forecastInterval ∧ c.forecastInterval ≤ 15) ∧
      (5 ≤ c.slotWidth ∧ c.slotWidth ≤ 40) ∧ (900 ≤ c.claimFill ∧ c.claimFill ≤ 999) ∧ c.dofferLead ≤ 30 ∧
      (10 ≤ c.railLead ∧ c.railLead ≤ 240) ∧ c.lookahead ≤ 120 ∧ c.batchDelay ≤ 300 ∧
      (3 ≤ c.clusterCount ∧ c.clusterCount ≤ 12) ∧ (100 ≤ c.laidMetres ∧ c.laidMetres ≤ 9000) ∧
      (2 ≤ c.rogueThreshold ∧ c.rogueThreshold ≤ 50) ∧ (3 ≤ c.holdThreshold ∧ c.holdThreshold ≤ 8)

/-- R197, R5, R43, R103, R122, R139: the end of the listening period. It completes in every state at its moment; where the
queues hold nothing yet, HELLO is the first notice, and every section kept in RUN-OUT stands in a ROVING-ASK. -/
def Obligations.BecomingActiveBeginsScanning : Prop :=
  ∀ (t : Nat) (s : State), s.start.phase = .listening → s.start.phaseStart + 2000000 ≤ max s.clock t →
    ∃ s', exec (.becomingActive t) s = .next s' ∧
      s'.start = { s.start with phase := .active, phaseStart := max s.clock t } ∧ s'.clock = max s.clock t ∧
      s'.drive = { s.drive with tickDue := some (max s.clock t + 10000000) } ∧
      s'.frame = { s.frame with lastForecast := some s.drive.measured,
                                forecastDue := some (max s.clock t + 60000000 * s.cfg.forecastInterval) } ∧
      (s'.chain.sideA.scanDue =
        if s.cfg.sectionsA = 0 then s.chain.sideA.scanDue else some (max s.clock t + 1000 * s.cfg.scanInterval)) ∧
      (s'.chain.sideB.scanDue =
        if s.cfg.sectionsB = 0 then s.chain.sideB.scanDue else some (max s.clock t + 1000 * s.cfg.scanInterval)) ∧
      (s.line.urgent = [] → s'.line.urgent.head? = some
        { dst := 255, src := s.start.strap, kind := some .hello, fresh := s.start.fresh, reference := 0,
          payload := [BitVec.ofNat 8 s.start.strap, 1#8, BitVec.ofNat 8 s.cfg.dofferGroup] }) ∧
      (s.line.urgent = [] → ∀ n ∈ s'.line.urgent.tail, n.kind = some .rovingAsk ∧ n.dst = s.cfg.railStation) ∧
      (s.line.routine = [] → s'.line.routine =
        [{ dst := 255, src := s.start.strap, kind := some .forecast, fresh := false, reference := 0,
           payload := byteField s.start.strap ++ byteField s.cfg.dofferGroup ++ byteField (modeCode s.frame.mode) ++
             wordField s.drive.measured ++ wordField s.drive.fill }]) ∧
      (∀ (k : Nat) (r : SupplyRec), s.roving.recs[k]? = some r → r.state = .runOut → s'.roving.recs[k]? = some
        { r with asks := 1, retryAt := some (max s.clock t / 1000 + 30000), eta := none }) ∧
      (s.line.urgent = [] → s.roving.recs.length ≤ 48 →
        ∀ r ∈ s.roving.recs, r.state = .runOut → 1 ≤ r.creel → r.creel ≤ 48 →
          ∃ n ∈ s'.line.urgent.tail, n.kind = some .rovingAsk ∧ n.lists r.creel) ∧
      (s.line.urgent = [] → s.cfg.batchDelay ≠ 0 → (∀ r ∈ s.roving.recs, r.state ≠ .runOut) →
        s'.line.urgent.tail = []) ∧
      (s.cfg.batchDelay ≠ 0 → (s.roving.recs.map (fun r => r.creel)).Nodup →
        ∀ (k : Nat) (r : SupplyRec), s.roving.recs[k]? = some r → r.state ≠ .runOut → s'.roving.recs[k]? = some r) ∧
      (s.cfg.batchDelay ≠ 0 → s.roving.batchDue = none →
        s'.roving.batchDue = if s.roving.recs.any (fun r => r.state == .due) then
          some (max s.clock t / 1000 + 1000 * s.cfg.batchDelay) else none) ∧
      s'.table = s.table ∧ s'.pieces = s.pieces ∧ s'.pins = s.pins ∧ s'.pending = s.pending

/-- R14, R135, R97, R99, R197, R199: the counts that a beginning frame minute raises, and nothing else. That each FRAME_MINUTE
begins one minute, so that `minutesBegun` rises by one, is the model's reading (log 19). -/
def Obligations.FrameMinuteRaisesCounts : Prop :=
  ∀ (t : Nat) (s : State), s.underWay → s.minutesBegun < max s.clock t / 60000000 →
    exec (.frameMinute t) s = .next
      { s.later t with
        minutesBegun := s.minutesBegun + 1
        tally := { s.tally with opened := { s.tally.opened with counts := { s.tally.opened.counts with
          blindMinutes := min 65535 (s.tally.opened.counts.blindMinutes +
            (s.chain.sideA.modules.countP (fun m => m.blind) + s.chain.sideB.modules.countP (fun m => m.blind)))
          runOutMinutes := min 65535 (s.tally.opened.counts.runOutMinutes +
            s.roving.recs.countP (fun r => r.state == .runOut))
          stopped := if s.frame.mode = .stopped then min 65535 (s.tally.opened.counts.stopped + 1)
            else s.tally.opened.counts.stopped
          doffStall := if s.frame.mode = .doffStall then min 65535 (s.tally.opened.counts.doffStall + 1)
            else s.tally.opened.counts.doffStall } } } }

/-! ## Chain engine -/

/-- R3, R5, R7, R8: a scan timer's expiry joins a sense pass, or is merged and counted as a late scan; a pass that starts
pulses its side's load output; a module frame of the sense pass in flight is kept as pending readings, passing when its
nine bits hold an odd number of ones; and the engine's choice of the next pass: the other side's earliest, else the
earliest of the side served last. -/
def Obligations.ScanExpiriesAndModuleFrames : Prop :=
  (∀ (t : Nat) (side : Side) (s : State) (due : Nat), s.start.phase = .active →
      (s.chain.side side).scanDue = some due → due ≤ max s.clock t →
      ∀ timer, timer = s.chain.withSide side
        { s.chain.side side with scanDue := some (due + 1000 * s.cfg.scanInterval) } →
      ((⟨side, .sense⟩ ∈ s.chain.queue ∨ ∃ f, s.chain.flight = some f ∧ f.pass = ⟨side, .sense⟩) →
        exec (.scanTimerExpiry t side) s = .next
          { s.later t with
            chain := timer
            tally := { s.tally with opened := { s.tally.opened with counts := { s.tally.opened.counts with
              lateScans := min 65535 (s.tally.opened.counts.lateScans + 1) } } } }) ∧
      (⟨side, .sense⟩ ∉ s.chain.queue → (∀ f, s.chain.flight = some f → f.pass ≠ ⟨side, .sense⟩) →
        (∀ f, s.chain.flight = some f → exec (.scanTimerExpiry t side) s = .next
          { s.later t with chain := { timer with queue := s.chain.queue ++ [⟨side, .sense⟩] } }) ∧
        (s.chain.flight = none → s.chain.queue = [] →
          ∀ started, started = s.chain.withSide side
            { s.chain.side side with scanDue := some (due + 1000 * s.cfg.scanInterval),
                                     loadedAt := some (max s.clock t) } →
          exec (.scanTimerExpiry t side) s = .next
            { s.later t with chain := { started with
                queue := []
                flight := some { pass := ⟨side, .sense⟩, since := max s.clock t, frames := [], bits := [] }
                lastServed := side } }))) ∧
    (∀ (last : Side) (queue : List Pass),
      (queue = [] → choosePass queue last = none) ∧
      (∀ ahead p behind, queue = ahead ++ p :: behind → p.side ≠ last → (∀ a ∈ ahead, a.side = last) →
        choosePass queue last = some p) ∧
      ∀ p behind, queue = p :: behind → (∀ a ∈ queue, a.side = last) → choosePass queue last = some p) ∧
    ∀ (t : Nat) (bits : BitVec 9) (s : State) (f : PassFlight), s.start.phase = .active → s.chain.flight = some f →
      f.pass.kind = .sense → f.frames.length < s.modulesOf f.pass.side →
      f.since + 9 * (f.frames.length + 1) * s.chainPeriod ≤ max s.clock t →
      exec (.moduleFrameReceived t bits) s = .next
        { s.later t with chain := { s.chain with flight := some { f with frames := f.frames ++
            [{ yarn := [bits.getLsbD 8, bits.getLsbD 7, bits.getLsbD 6, bits.getLsbD 5, bits.getLsbD 4,
                        bits.getLsbD 3, bits.getLsbD 2, bits.getLsbD 1]
               passing := ((List.range 9).countP (fun k => bits.getLsbD k)) % 2 == 1 }] } } }

/-- R6, R7, R9 to R13, R15, R18: a sense pass is applied at its end: the trailer-missing count and every module's record,
each module in its order with the detect condition of this moment, the last readings of a good module; then the side's
drive pass joins the queue, and the pass that the engine chooses starts. -/
def Obligations.SensePassJudgesModules : Prop :=
  (∀ (t : Nat) (trailer : BitVec 12) (s : State) (f : PassFlight), s.start.phase = .active →
    s.chain.flight = some f → f.pass.kind = .sense → f.frames.length = s.modulesOf f.pass.side →
    (s.chain.side f.pass.side).modules.length = s.modulesOf f.pass.side →
    f.since + (9 * s.modulesOf f.pass.side + 12) * s.chainPeriod ≤ max s.clock t →
    ∃ s1 s', exec (.sensePassEnd t trailer) s = .next s' ∧
      s1 = (s.later t).applyPass f.pass.side f.frames (trailer == 0b101001101001#12) ∧
      (∀ joined : State, joined = { s1 with chain := { s1.chain with
          flight := none, queue := s1.chain.queue ++ [⟨f.pass.side, .drive⟩] } } →
        ∀ p, choosePass joined.chain.queue joined.chain.lastServed = some p → s' = joined.begun p) ∧
      (s'.chain.side f.pass.side).trailerMissing =
        (if trailer = 0b101001101001#12 then 0 else min 3 ((s.chain.side f.pass.side).trailerMissing + 1)) ∧
      (s'.chain.side f.pass.side).modules.length = s.modulesOf f.pass.side ∧
      (∀ (k : Nat) (frame : PendingFrame) (old new : ModuleRec), f.frames[k]? = some frame →
        (s.chain.side f.pass.side).modules[k]? = some old → (s'.chain.side f.pass.side).modules[k]? = some new →
        if trailer = 0b101001101001#12 ∧ frame.passing = true then
          new.suspect = 0 ∧
            (if old.blind = true then
              (if old.recovery + 1 < 8 then new.blind = true ∧ new.recovery = old.recovery + 1
               else new.blind = false ∧ new.recovery = 0)
             else new.blind = false)
        else
          new.suspect = min 3 (old.suspect + 1) ∧ new.recovery = 0 ∧
            (new.blind = true ↔ old.blind = true ∨ 3 ≤ old.suspect + 1)) ∧
      (∀ (k q : Nat) (frame : PendingFrame) (yarn : Bool), f.frames[k]? = some frame → frame.yarn[q]? = some yarn →
        q < 8 → s.sideBase f.pass.side + 8 * k + q < s.chain.readings.length →
        s'.chain.readings[s.sideBase f.pass.side + 8 * k + q]? =
          if trailer = 0b101001101001#12 ∧ frame.passing = true then some yarn
          else s.chain.readings[s.sideBase f.pass.side + 8 * k + q]?) ∧
      (⟨f.pass.side, .drive⟩ ∈ s'.chain.queue ∨
        ∃ g, s'.chain.flight = some g ∧ g.pass = ⟨f.pass.side, .drive⟩ ∧ g.since = max s.clock t) ∧
      s'.pins = s.pins ∧ s'.drive = s.drive ∧ s'.frame = s.frame ∧ s'.start = s.start ∧ s'.clock = max s.clock t) ∧
    ∀ (s : State) (side : Side) (frames : List PendingFrame) (matched : Bool),
      ∀ counted : State, counted = { s with
        chain := s.chain.withSide side
          { s.chain.side side with
            trailerMissing := if matched = true then 0 else min 3 ((s.chain.side side).trailerMissing + 1) } } →
      s.applyPass side frames matched =
        (frames.zipIdx 1).foldl
          (fun u p => u.applyModule side s.detects p.2 (matched && p.1.passing) p.1.yarn)
          (if s.detects = true then counted else counted.runsCleared (s.spindlesOf side))

/-- R10 to R12, R15 to R17, R34, R35, R82, R84: with the detect condition not holding, a good pass declares nothing and
returns the run counters of its side to 0; with it holding, every reading of a good module moves the run counter and makes
a report by the declared condition, and the reports are taken in order of position. A module that goes blind holds its
spindles and ends their calls; one that recovers returns them by their held-from and the readings of the pass. -/
def Obligations.DebounceFollowsDetectAndTable : Prop :=
  (∀ (t : Nat) (s : State) (f : PassFlight), s.start.phase = .active →
      s.chain.flight = some f → f.pass.kind = .sense → f.frames.length = s.modulesOf f.pass.side →
      f.since + (9 * s.modulesOf f.pass.side + 12) * s.chainPeriod ≤ max s.clock t →
      (s.later t).detects = false → (∀ frame ∈ f.frames, frame.passing = true) →
      (∀ m ∈ (s.chain.side f.pass.side).modules, m.blind = false) →
      s.table.recs.length = s.spindlesA + s.spindlesB →
      ∃ s', exec (.sensePassEnd t 0b101001101001#12) s = .next s' ∧ s'.table.breakList = s.table.breakList ∧
        s'.table.heldA = s.table.heldA ∧ s'.table.heldB = s.table.heldB ∧
        (∀ n r, s.spindle n = some r →
          s'.spindle n = some (if s.sideOf n = f.pass.side then { r with run := 0 } else r)) ∧
        s'.pieces = s.pieces ∧ s'.roving = s.roving ∧ s'.tally = s.tally ∧ s'.line = s.line ∧ s'.drive = s.drive ∧
        s'.frame = s.frame) ∧
    (∀ s : State, s.detects = true ↔ (s.frame.mode = .running ∨ s.frame.mode = .restart) ∧ s.drive.turning = true ∧
      ∃ m, s.chain.rollerBegan = some m ∧ m + 1000 * s.cfg.detectDelay ≤ s.clock / 1000) ∧
    (∀ (s : State) (side : Side) (detect : Bool) (m : Nat) (yarn : List Bool) (old : ModuleRec),
      old = (s.chain.side side).modules.getD (m - 1) ⟨0, 0, false⟩ →
      (∀ bad : ModuleRec, bad = ⟨min 3 (old.suspect + 1), 0, old.blind || decide (3 ≤ old.suspect + 1)⟩ →
        ((old.blind = true ∨ old.suspect + 1 < 3) →
          s.applyModule side detect m false yarn = s.moduleSet side m bad) ∧
        (old.blind = false → 3 ≤ old.suspect + 1 → s.applyModule side detect m false yarn =
          ((s.moduleSet side m bad).runsCleared (s.spindlesIn side m)).blindModule side m)) ∧
      (old.blind = true → old.recovery + 1 < 8 →
        s.applyModule side detect m true yarn = s.moduleRead side m ⟨0, old.recovery + 1, true⟩ yarn) ∧
      (old.blind = true → 8 ≤ old.recovery + 1 → s.applyModule side detect m true yarn =
        (s.moduleRead side m ⟨0, 0, false⟩ yarn).recoverModule side m yarn) ∧
      (old.blind = false → detect = false →
        s.applyModule side detect m true yarn = s.moduleRead side m ⟨0, old.recovery, false⟩ yarn) ∧
      (old.blind = false → detect = true → ∀ (s1 counted : State) (first : Nat),
        s1 = s.moduleRead side m ⟨0, old.recovery, false⟩ yarn → first = s.sideBase side + 8 * (m - 1) →
        counted = { s1 with table := { s1.table with recs := s1.table.recs.mapIdx (fun k r =>
          if first ≤ k ∧ k < first + 8 then ((yarn[k - first]?).map (fun y => (debounceRec s.cfg r y).1)).getD r
          else r) } } →
        s.applyModule side detect m true yarn = ((s.spindlesIn side m).zip yarn).foldl
          (fun u p => u.reported p.1 ((s1.spindle p.1).bind (fun r => (debounceRec s.cfg r p.2).2))) counted)) ∧
    (∀ (c : Settings) (r : SpindleRec),
      (r.state = .up → debounceRec c r true = ({ r with run := 0 }, none)) ∧
      (r.state = .up → r.run + 1 < c.kDown → debounceRec c r false = ({ r with run := r.run + 1 }, none)) ∧
      (r.state = .up → c.kDown ≤ r.run + 1 → debounceRec c r false = ({ r with run := 0 }, some false)) ∧
      ((r.state = .down ∨ r.state = .called ∨ r.state = .taken ∨ r.state = .runOut ∨ r.state = .locked) →
        debounceRec c r false = ({ r with run := 0 }, none) ∧
        (r.run + 1 < c.kUp → debounceRec c r true = ({ r with run := r.run + 1 }, none)) ∧
        (c.kUp ≤ r.run + 1 → debounceRec c r true = ({ r with run := 0 }, some true)))) ∧
    (∀ (s : State) (side : Side) (m : Nat) (held : State),
      held = (s.spindlesIn side m).foldl (fun u n => u.holdSpindle n) s →
      ((∃ n ∈ s.spindlesIn side m, ∃ r c, s.spindle n = some r ∧ r.call.bind s.liveCall = some c) →
        s.blindModule side m = held.walk) ∧
      ((∀ n ∈ s.spindlesIn side m, ∀ r, s.spindle n = some r → r.call.bind s.liveCall = none) →
        s.blindModule side m = held)) ∧
    (∀ (s : State) (n : Nat),
      (s.spindle n = none → s.holdSpindle n = s) ∧
      ∀ r, s.spindle n = some r →
        (r.state = .held → s.holdSpindle n = s) ∧
        (r.state ≠ .held →
          (s.holdSpindle n).spindle n = some
            { r with state := .held, run := if r.state = .up then 0 else r.run,
                     upMark := if r.state = .up then s.drive.d else r.upMark,
                     length := if r.state = .up then min 16777215 (r.length + (s.drive.d - r.upMark).toNat)
                       else r.length,
                     heldFrom := some (if r.state = .called ∨ r.state = .taken then .down else r.state),
                     heldMark := some s.drive.d, call := none, notBefore := none } ∧
          (∀ k, k ≠ n → (s.holdSpindle n).spindle k = s.spindle k) ∧
          (s.holdSpindle n).table.breakList = s.table.breakList.filter (fun k => k != n) ∧
          (r.call.bind s.liveCall = none → (s.holdSpindle n).pieces = s.pieces ∧ (s.holdSpindle n).line = s.line ∧
            (s.holdSpindle n).tally = s.tally) ∧
          (∀ c, r.call.bind s.liveCall = some c →
            (s.holdSpindle n).pieces =
                { s.pieces with calls := s.pieces.calls.filter (fun d => d.number != c.number) } ∧
              (s.holdSpindle n).line = (s.hand (s.endingNotice 5#8 c)).line ∧
              (s.holdSpindle n).tally = (s.hand (s.endingNotice 5#8 c)).tally) ∧
          (s.holdSpindle n).drive = s.drive ∧ (s.holdSpindle n).frame = s.frame ∧
          (s.holdSpindle n).roving = s.roving)) ∧
    (∀ (s : State) (side : Side) (m : Nat) (yarn : List Bool), s.recoverModule side m yarn =
      ((s.spindlesIn side m).zip yarn).foldl (fun u p => u.recoverSpindle p.1 p.2) s) ∧
    ∀ (s : State) (n : Nat) (yarn : Bool) (r : SpindleRec) (origin : SpindleState) (mark : DCount),
      s.spindle n = some r → r.state = .held → r.heldFrom = some origin → r.heldMark = some mark →
      (∀ side, (s.recoverSpindle n yarn).heldSum side =
        (if s.sideOf n = side then min 4294967295 (s.heldSum side + (s.drive.d - mark).toNat) else s.heldSum side)) ∧
      (origin = .locked →
        (s.recoverSpindle n yarn).spindle n = some
          { r with state := .locked, heldFrom := none, heldMark := none, notBefore := none } ∧
        (s.recoverSpindle n yarn).table.breakList = s.table.breakList) ∧
      (origin = .up → yarn = true →
        (s.recoverSpindle n yarn).spindle n = some
          { r with state := .up, run := 0, upMark := s.drive.d, heldFrom := none, heldMark := none,
                   notBefore := none } ∧
        (s.recoverSpindle n yarn).table.breakList = s.table.breakList) ∧
      ((origin = .up ∧ yarn = false) ∨ origin = .down ∨ origin = .runOut →
        (s.recoverSpindle n yarn).spindle n = some
          { r with state := s.downTarget n, downSince := s.clock / 1000000, heldFrom := none, heldMark := none,
                   notBefore := none } ∧
        (s.recoverSpindle n yarn).table.breakList = s.table.breakList ++ [n]) ∧
      (∀ k, k ≠ n → (s.recoverSpindle n yarn).spindle k = s.spindle k) ∧
      (s.recoverSpindle n yarn).pieces = s.pieces ∧ (s.recoverSpindle n yarn).line = s.line ∧
      (s.recoverSpindle n yarn).tally = s.tally ∧ (s.recoverSpindle n yarn).roving = s.roving

/-- R23 to R25, R27, R32, R37, R63, R83, R84, R130, R131, R133: what a declaration of down does to the spindle, the break
list and the counts; the report of a break to the roving unit, and a section that a cluster of breaks makes RUN-OUT: its
spindles, their calls, and the ask to the rail. That the calls end oldest first is the model's reading (log 8), that each
report is an event of its own its choice (log 33). -/
def Obligations.DeclaredDownEntersTheBreakList : Prop :=
  (∀ (s : State) (n : Nat) (r : SpindleRec), s.spindle n = some r →
    (r.state ≠ .up → s.declareDown n = s) ∧
    (r.state = .up →
      (∃ r', (s.declareDown n).spindle n = some r' ∧ (r'.state = .down ∨ r'.state = .runOut) ∧ r'.run = 0 ∧
        r'.attempts = r.attempts ∧ r'.breaks = min 255 (r.breaks + 1) ∧ r'.upMark = s.drive.d ∧
        r'.length = min 16777215 (r.length + (s.drive.d - r.upMark).toNat) ∧ r'.downSince = s.clock / 1000000 ∧
        r'.notBefore = none) ∧
      (s.declareDown n).table.breakList = s.table.breakList ++ [n] ∧
      (∀ side, (s.declareDown n).sideCounts side =
        (let c := s.sideCounts side
         if s.sideOf n = side then
           { c with endsDown := min 65535 (c.endsDown + 1)
                    startUpBreaks := if s.frame.mode = .restart then min 255 (c.startUpBreaks + 1)
                      else c.startUpBreaks }
         else c)) ∧
      (s.declareDown n).drive = s.drive ∧ (s.declareDown n).frame = s.frame ∧
      ∃ s1 : State, s.declareDown n = s1.recordBreak (s.sectionOf n) ∧
        s1.spindle n = some
          { r with state := s.downTarget n, run := 0, breaks := min 255 (r.breaks + 1), upMark := s.drive.d,
                   length := min 16777215 (r.length + (s.drive.d - r.upMark).toNat),
                   downSince := s.clock / 1000000, notBefore := none } ∧
        (∀ k, k ≠ n → s1.spindle k = s.spindle k) ∧ s1.roving = s.roving ∧ s1.pieces = s.pieces ∧
        s1.line = s.line ∧ s1.chain = s.chain ∧ s1.start = s.start ∧ s1.clock = s.clock)) ∧
    (∀ (s : State) (n : Nat), s.downTarget n =
      if (s.roving.recs.find? (fun q => q.creel == s.sectionOf n)).any (fun q => q.state == .runOut) then .runOut
      else .down) ∧
    (∀ (s : State) (creel : Nat), (∀ q ∈ s.roving.recs, q.creel ≠ creel) → s.recordBreak creel = s) ∧
    (∀ (s s1 : State) (creel : Nat) (q : SupplyRec) (breaks : List Nat), q ∈ s.roving.recs → q.creel = creel →
      (s.roving.recs.map (fun r => r.creel)).Nodup → q.breaks.length ≤ 12 →
      breaks = (if q.breaks.length = 12 then q.breaks.tail else q.breaks) ++ [s.clock / 1000000] →
      s1 = { s with roving := { s.roving with recs := s.roving.recs.map (fun r =>
        if r.creel = creel then { r with breaks := breaks } else r) } } →
      ∀ cluster : Prop, cluster = (q.state ≠ .runOut ∧
        s.cfg.clusterCount ≤ breaks.countP (fun b => decide (s.clock / 1000000 ≤ b + 120)) ∧
        q.remaining ≤ q.laidLength / 10) →
      (¬cluster → s.recordBreak creel = s1) ∧
      (cluster → ∀ out : State, out = ({ s1 with roving := { s1.roving with recs := s1.roving.recs.map (fun r =>
          if r.creel = creel then { r with state := .runOut, time := some 0 } else r) } } : State).runOutSpindles
            creel →
        (q.state = .none ∨ q.state = .due → s.recordBreak creel = out.askRunOut [creel]) ∧
        (q.state ≠ .none → q.state ≠ .due → s.recordBreak creel = out))) ∧
    (∀ (s : State) (creel : Nat), (s.pieces.calls.map (fun c => c.number)).Nodup →
      ∃ (ended : List Call) (s1 : State),
        ended.Perm (s.pieces.calls.filter (fun c => s.sectionOf c.spindle == creel)) ∧
        ended.Pairwise (fun a b => a.openedAt ≤ b.openedAt) ∧
        s.runOutSpindles creel = (if ended = [] then s1 else s1.walk) ∧
        s1.pieces = { s.pieces with calls := s.pieces.calls.filter (fun c => s.sectionOf c.spindle != creel) } ∧
        s1.line = (s.handAll (ended.map (s.endingNotice 6#8))).line ∧
        s1.tally = (s.handAll (ended.map (s.endingNotice 6#8))).tally ∧
        (∀ n r, s.spindle n = some r → s1.spindle n = some
          (if s.sectionOf n = creel ∧ (r.state = .down ∨ r.state = .called ∨ r.state = .taken) then
            { r with state := .runOut, call := none, notBefore := none }
           else r)) ∧
        s1.table.breakList = s.table.breakList ∧ s1.roving = s.roving ∧ s1.drive = s.drive ∧ s1.frame = s.frame ∧
        s1.clock = s.clock ∧ s1.start = s.start) ∧
    ∀ (s : State) (creel : Nat) (q : SupplyRec), q ∈ s.roving.recs → q.creel = creel → q.state = .runOut →
      1 ≤ creel → creel ≤ 48 → (s.roving.recs.map (fun r => r.creel)).Nodup →
      ∃ ask : Notice,
        s.askRunOut [creel] = ({ s with roving :=
          { s.roving with
            recs := s.roving.recs.map (fun r =>
              if r.creel = creel then { r with asks := 1, retryAt := some (s.clock / 1000 + 30000), eta := none }
              else r)
            askSeq := if s.roving.askSeq < 65535 then s.roving.askSeq + 1 else 1 } } : State).hand ask ∧
        ask.kind = some .rovingAsk ∧ ask.dst = s.cfg.railStation ∧ ask.src = s.start.strap ∧
        ask.reference = s.roving.askSeq ∧ ask.fresh = false ∧ ask.payload.length = 9 ∧
        ask.payload.take 1 = [BitVec.ofNat 8 s.start.strap] ∧ ask.payload.drop 7 = [0#8, 0#8] ∧
        ∀ k, 1 ≤ k → k ≤ 48 → (ask.lists k ↔ k = creel)

/-- R26, R27, R70, R77, R78, R84: what a declaration of up does to the spindle and to its call: the slot is freed, CLOSE(PIECED)
goes to the carriage of a TAKEN or VERIFY call and CANCEL is broadcast for an OPEN one, the piecing is counted, and one walk
follows; with no call there is neither. -/
def Obligations.DeclaredUpMendsTheEnd : Prop :=
  ∀ (s : State) (n : Nat) (r : SpindleRec), s.spindle n = some r →
    ((r.state = .up ∨ r.state = .locked ∨ r.state = .held) → s.declareUp n = s) ∧
    ((r.state = .down ∨ r.state = .called ∨ r.state = .taken ∨ r.state = .runOut) →
      (s.declareUp n).spindle n = some { r with state := .up, run := 0, upMark := s.drive.d, attempts := 0,
                                                notBefore := none, call := none } ∧
      n ∉ (s.declareUp n).table.breakList ∧
      (∀ m, m ≠ n → (m ∈ (s.declareUp n).table.breakList ↔ m ∈ s.table.breakList)) ∧
      (∀ k c, r.call = some k → s.liveCall k = some c →
        (∀ side, (s.declareUp n).sideCounts side =
          (let o := s.sideCounts side
           if s.sideOf c.spindle ≠ side then o
           else if c.state = .opened then { o with piecedByHand := min 255 (o.piecedByHand + 1) }
           else { o with pieced := min 65535 (o.pieced + 1) })) ∧
        ∃ s1 : State, s.declareUp n = s1.walk ∧
          s1.pieces = { s.pieces with calls := s.pieces.calls.filter (fun d => d.number != k) } ∧
          s1.line = (s.hand (s.endingNotice 1#8 c)).line ∧
          s1.tally.opened.counts = (s.hand (s.endingNotice 1#8 c)).tally.opened.counts ∧
          (∀ side, s1.sideCounts side = (s.declareUp n).sideCounts side) ∧ s1.tally.ring = s.tally.ring ∧
          s1.spindle n = some { r with state := .up, run := 0, upMark := s.drive.d, attempts := 0, notBefore := none,
                                       call := none } ∧
          (∀ m, m ≠ n → s1.spindle m = s.spindle m) ∧
          s1.table.breakList = s.table.breakList.filter (fun m => m != n) ∧ s1.frame = s.frame ∧ s1.chain = s.chain ∧
          s1.start = s.start ∧ s1.clock = s.clock) ∧
      (r.call.bind s.liveCall = none →
        (s.declareUp n).pieces = s.pieces ∧ (s.declareUp n).line = s.line ∧ (s.declareUp n).tally = s.tally ∧
          ∀ m, m ≠ n → (s.declareUp n).spindle m = s.spindle m) ∧
      (s.declareUp n).roving = s.roving ∧ (s.declareUp n).drive = s.drive)

/-- R4, R7, R18: a drive pass sends lamp and clamp by the spindle states; at its end the latch pulses, the modules take
what was sent, and the pass that the engine chooses starts, a drive pass with its bits formed at that moment. -/
def Obligations.DrivePassSetsLampsAndClamps : Prop :=
  (∀ ms : Nat,
      driveBitsOf .up ms = ⟨false, false⟩ ∧ driveBitsOf .down ms = ⟨true, true⟩ ∧
      driveBitsOf .called ms = ⟨true, true⟩ ∧ driveBitsOf .taken ms = ⟨true, false⟩ ∧
      driveBitsOf .runOut ms = ⟨true, true⟩ ∧ driveBitsOf .locked ms = ⟨decide (ms % 1000 < 500), true⟩ ∧
      driveBitsOf .held ms = ⟨false, true⟩) ∧
    ∀ (t : Nat) (s : State) (f : PassFlight), s.start.phase = .active → s.chain.flight = some f →
      f.pass.kind = .drive → f.since + 16 * s.modulesOf f.pass.side * s.chainPeriod ≤ max s.clock t →
      (∃ s', exec (.drivePassEnd t) s = .next s' ∧ (s'.chain.side f.pass.side).outputs = f.bits ∧
        (∀ latched ended : State, latched = { s.later t with
          chain := s.chain.withSide f.pass.side
            { s.chain.side f.pass.side with latchedAt := some (max s.clock t), outputs := f.bits } } →
          ended = { latched with chain := { latched.chain with flight := none } } →
          ∀ p, choosePass s.chain.queue s.chain.lastServed = some p → s' = ended.begun p) ∧
        (∀ g, s'.chain.flight = some g → g.pass.kind = .drive →
          g.bits = (s.spindlesOf g.pass.side).filterMap (fun n =>
            (s.spindle n).map (fun r => driveBitsOf r.state (max s.clock t / 1000)))) ∧
        s'.table = s.table ∧ s'.tally = s.tally ∧ s'.line = s.line) ∧
      (s.chain.queue = [] → exec (.drivePassEnd t) s = .next
        { s.later t with chain := { s.chain.withSide f.pass.side
            { s.chain.side f.pass.side with latchedAt := some (max s.clock t), outputs := f.bits } with
              flight := none } })

/-! ## Spindle table -/

/-- R31, R178, R204: what a press of a side-clear button and an UNLOCK clear. A press is a change of the input that its
filter takes, 10 ms counted from the last change taken, and one that it does not take moves the clock alone (log 36); an
UNLOCK is handed to a spindle table that can take it (log 11). -/
def Obligations.ClearingSendsLockedSpindlesDown : Prop :=
  (∀ s : State, s.spindlesOf .A = (List.range (24 * s.cfg.sectionsA)).map (fun k => k + 1) ∧
    s.spindlesOf .B = (List.range (24 * s.cfg.sectionsB)).map (fun k => 24 * s.cfg.sectionsA + k + 1)) ∧
    (∀ (t : Nat) (side : Side) (s : State) (input : Input), s.start.phase = .active →
      input = (if side = .A then .clearA else .clearB) → s.mayChange t input true →
      ∃ s', exec (.sideClearPress t side) s = .next s' ∧ s'.pins = (s.changed t input true).pins ∧
        (∀ n r, s.spindle n = some r → n ≤ s.spindlesA + s.spindlesB → s.sideOf n = side →
          s'.spindle n = some
            (if r.state = .locked then
              { r with state := s.downTarget n, attempts := 0, downSince := max s.clock t / 1000000,
                       notBefore := none }
             else if r.state = .held ∧ r.heldFrom = some .locked then
              { r with attempts := 0, heldFrom := some .down }
             else r)) ∧
        (∀ n r, s.spindle n = some r → s.sideOf n ≠ side → s'.spindle n = some r) ∧
        s'.table.breakList = s.table.breakList ++ (s.spindlesOf side).filter (fun n =>
          (s.spindle n).any (fun r => r.state == .locked)) ∧
        s'.tally = s.tally ∧ s'.pieces = s.pieces ∧ s'.roving = s.roving) ∧
    (∀ (t : Nat) (side : Side) (s : State), s.start.phase = .active →
      ¬s.mayChange t (if side = .A then .clearA else .clearB) true →
      exec (.sideClearPress t side) s = .next (s.later t)) ∧
    (∀ (t : Nat) (s : State), s.start.phase = .active → s.canHand t .spindleTable →
      ∃ s', exec (.unlock t 0) s = .next s' ∧
        (∀ n r, s.spindle n = some r → n ≤ s.spindlesA + s.spindlesB →
          s'.spindle n = some
            (if r.state = .locked then
              { r with state := s.downTarget n, attempts := 0, downSince := max s.clock t / 1000000,
                       notBefore := none }
             else if r.state = .held ∧ r.heldFrom = some .locked then
              { r with attempts := 0, heldFrom := some .down }
             else r)) ∧
        s'.table.breakList = s.table.breakList ++ (s.spindlesOf .A ++ s.spindlesOf .B).filter (fun n =>
          (s.spindle n).any (fun r => r.state == .locked)) ∧
        s'.tally = s.tally ∧ s'.pieces = s.pieces ∧ s'.roving = s.roving ∧
        s'.line = (s.handed t .spindleTable).line) ∧
    ∀ (t n : Nat) (s : State), s.start.phase = .active → s.canHand t .spindleTable →
      (s.spindle n = none → n ≠ 0 → exec (.unlock t n) s = .next (s.handed t .spindleTable)) ∧
      (∀ r, s.spindle n = some r →
        (r.state = .locked → ∃ s', exec (.unlock t n) s = .next s' ∧
          s'.spindle n = some { r with state := s.downTarget n, attempts := 0,
                                       downSince := max s.clock t / 1000000, notBefore := none } ∧
          s'.table.breakList = s.table.breakList ++ [n] ∧
          (∀ m, m ≠ n → s'.spindle m = s.spindle m) ∧ s'.tally = s.tally ∧ s'.pieces = s.pieces) ∧
        (r.state = .held → r.heldFrom = some .locked → ∃ s', exec (.unlock t n) s = .next s' ∧
          s'.spindle n = some { r with attempts := 0, heldFrom := some .down } ∧
          s'.table.breakList = s.table.breakList ∧ (∀ m, m ≠ n → s'.spindle m = s.spindle m)) ∧
        (r.state ≠ .locked → ¬(r.state = .held ∧ r.heldFrom = some .locked) →
          exec (.unlock t n) s = .next (s.handed t .spindleTable)))

/-! ## Delivery and drive -/

/-- R41: after any number N of pulses D has grown by floor((R + N × C) / (P × 10,000)), modulo 2^32, and R holds the
rest. The pulses come at moments that are 20 µs of high and 20 µs of low apart (R204, log 23). -/
def Obligations.PulsesCountDelivery : Prop :=
  ∀ (ts : List Nat) (s : State), s.underWay → s.drive.remainder < s.cfg.pulses * 10000 →
    (∀ t ∈ ts, s.clock ≤ t) → (s.drive.lastPulse :: ts).Pairwise (fun a b => a + 40 ≤ b) →
    ∃ s', Sys2Proof.core.run ts.length { s with pending := ts.map Instr.frontRollerPulse } = .next s' ∧
      s'.drive.d = s.drive.d +
        BitVec.ofNat 32 ((s.drive.remainder + ts.length * s.cfg.circumference) / (s.cfg.pulses * 10000)) ∧
      s'.drive.remainder =
        (s.drive.remainder + ts.length * s.cfg.circumference) % (s.cfg.pulses * 10000) ∧
      s'.drive.copMark = s.drive.copMark ∧ s'.start = s.start ∧ s'.pins = s.pins ∧ s'.roving = s.roving

/-- R42, R58, R204: a pulse begins the roller's turning and restarts its 500 ms wait; a wait run out stops it; a PWM period
takes the waiting duty. A pulse that completes no decimetre changes nothing else; an edge that leaves the high and the low
since the last pulse no 20 µs each is no pulse (log 23). -/
def Obligations.RollerAndPwmEvents : Prop :=
  (∀ (t : Nat) (s : State), s.underWay → 1 ≤ s.cfg.pulses → s.drive.lastPulse + 40 ≤ max s.clock t →
      s.drive.remainder + s.cfg.circumference < s.cfg.pulses * 10000 →
      exec (.frontRollerPulse t) s = .next
        { s.later t with
          drive := { s.drive with remainder := s.drive.remainder + s.cfg.circumference, turning := true,
                                  lastPulse := max s.clock t }
          chain := if s.drive.turning = true then s.chain
            else { s.chain with rollerBegan := some (max s.clock t / 1000) } }) ∧
    (∀ (t : Nat) (s : State), s.underWay → max s.clock t < s.drive.lastPulse + 40 →
      exec (.frontRollerPulse t) s = .next (s.later t)) ∧
    (∀ (t : Nat) (s : State), s.underWay → s.drive.turning = true → s.drive.lastPulse + 500000 ≤ max s.clock t →
      exec (.rollerStopsTurning t) s = .next
        { s.later t with drive := { s.drive with turning := false, buckets := [], rate := none,
                                                 eligible := false } }) ∧
    ∀ (t : Nat) (s : State), s.start.phase ≠ .off → s.start.phase ≠ .inReset → s.start.phase ≠ .configFault →
      s.drive.pwmNext ≤ max s.clock t →
      exec (.pwmPeriodStart t) s = .next
        { s.later t with drive := { s.drive with dutyRunning := s.drive.dutyWaiting,
                                                 pwmNext := s.drive.pwmNext + 1000 } }

/-- R41, R47, R94, R95, R102, R107, R108, R81: fill is computed at every change of D that a pulse makes; the claim that
fill reaching the claim fill makes; and the pulse that makes the cop full in RUNNING or RESTART takes the frame to
FULL-STOP, or through it to FULL-WAIT when the ring rail already stands at the doff position. The model's readings: the mode
that the DOFF-CLAIM of that entry carries (log 30), the FORECAST of that entry with the measured forecast of the last tick
(log 32), the claim behind the notices of the ended calls (log 38), and pulses 40 µs apart (log 23). -/
def Obligations.FullCopStopsTheFrame : Prop :=
  (∀ (t : Nat) (s : State), s.start.phase = .active → (s.frame.mode = .running ∨ s.frame.mode = .restart) →
    1 ≤ s.cfg.pulses → (s.drive.remainder + s.cfg.circumference) / (s.cfg.pulses * 10000) = 1 →
    s.drive.fullLatch = false → s.drive.fill < 1000 →
    10 * s.cfg.copLength ≤ (s.drive.d + 1 - s.drive.copMark).toNat → 1 ≤ s.cfg.copLength →
    s.drive.lastPulse + 40 ≤ max s.clock t →
    ∃ s', exec (.frontRollerPulse t) s = .next s' ∧
      s'.frame.mode = (if s.pins.atDoff = true then .fullWait else .fullStop) ∧ s'.frame.reason = none ∧
      s'.drive.fill = 1000 ∧ s'.drive.fullLatch = true ∧ s'.drive.speed = s.drive.speed ∧
      s'.drive.dutyWaiting = (if s.pins.atDoff = true then 0
        else min 1023 ((1024 * s.drive.speed + s.cfg.sFull / 2) / s.cfg.sFull)) ∧
      s'.frame.trim = 0 ∧ s'.pieces.calls = [] ∧
      s'.frame.fullAt = some (s.frame.fullAt.getD (max s.clock t / 1000000)) ∧
      s'.frame.positionDue = (if s.pins.atDoff = true then none
        else some (max s.clock t + 1000000 * s.cfg.positionTimeout)) ∧
      s'.frame.graceDue = none ∧ s'.frame.claim.state ≠ .none ∧
      (s.frame.claim.state ≠ .none → s'.frame.claim = s.frame.claim) ∧
      s'.frame.lastForecast = some s.drive.measured) ∧
    (∀ (t : Nat) (s : State), s.underWay → 1 ≤ s.cfg.pulses → s.drive.lastPulse + 40 ≤ max s.clock t →
      exec (.frontRollerPulse t) s = .next (({ s.later t with
          drive := { s.drive with
            remainder := (s.drive.remainder + s.cfg.circumference) % (s.cfg.pulses * 10000)
            turning := true
            lastPulse := max s.clock t }
          chain := if s.drive.turning = true then s.chain
            else { s.chain with rollerBegan := some (max s.clock t / 1000) } } : State).addDecimetres
        ((s.drive.remainder + s.cfg.circumference) / (s.cfg.pulses * 10000)))) ∧
    (∀ s : State, s.addDecimetres 0 = s ∧ ∀ k, s.addDecimetres (k + 1) = s.addDecimetre.addDecimetres k) ∧
    ∀ (s s1 s2 : State) (fill : Nat),
      fill = (if s.drive.fullLatch = true then 1000
        else min 1000 (1000 * (s.drive.d + 1 - s.drive.copMark).toNat / (10 * s.cfg.copLength))) →
      s1 = { s with drive := { s.drive with d := s.drive.d + 1, fill := fill,
                                            fullLatch := s.drive.fullLatch || decide (fill = 1000) } } →
      ∀ claims : Prop, claims = (s.drive.fill < s.cfg.claimFill ∧ s.cfg.claimFill ≤ fill ∧ opensCalls s.frame.mode ∧
        s.mayClaimAt s.clock = true) →
      (claims → s2 = ({ s1 with frame := { s.frame with claim := Claim.madeAt s.clock .none, trim := 0 } } : State).hand
        { dst := s.cfg.dofferStation, src := s.start.strap, kind := some .doffClaim, fresh := false, reference := 0,
          payload := [BitVec.ofNat 8 s.start.strap, BitVec.ofNat 8 s.cfg.dofferGroup,
              BitVec.ofNat 8 (modeCode s.frame.mode)] ++ wordField fill ++ wordField s.drive.measured ++
            [0#8, 0#8] }) →
      (¬claims → s2 = s1) →
      (¬(s.drive.fill < 1000 ∧ fill = 1000) → s.addDecimetre = s2) ∧
      (s.drive.fill < 1000 → fill = 1000 → ∀ full : State,
        full = { s2 with frame := { s2.frame with fullAt := some (s.frame.fullAt.getD (s.clock / 1000000)) } } →
        (¬opensCalls s.frame.mode → s.addDecimetre = full) ∧
        (opensCalls s.frame.mode → full.changedMode .fullStop none s.addDecimetre))

/-- R44, R45, R48 to R50, R52, R55, R84, R103, R106 to R109: what an update tick makes of the delivery and drive unit, the
trim, the claim with its DOFF-CLAIM, and the FORECAST handed after it; the walk and the roving unit's work that follow. Their
order within the tick is read from the table of the chapter (log 9). The natural forecast takes the trim that was handed over
at the previous tick, and the trim of this tick is kept for the next. -/
def Obligations.UpdateTickBringsDriveUpToDate : Prop :=
  ∀ (t due : Nat) (s : State), s.start.phase = .active → s.drive.tickDue = some due → due ≤ max s.clock t →
    ∀ u, u = (({ s.drive with tickDue := some (due + 10000000) } : DriveUnit).tickRate).forecasts s.cfg →
    ∀ run, run = (decide (s.frame.mode = .running) || decide (s.frame.mode = .restart)) →
    ∀ trim, trim = (if run = true ∧ s.frame.claim.state = .none ∧ u.natural ≠ 999 then
        trimFor s.cfg u.natural ((s.later t).yieldedTo u.natural) else 0) →
    ∀ claims, claims = (s.mayClaimAt (max s.clock t) && ((run &&
        (decide (s.cfg.claimFill ≤ u.fill) || decide (u.measured ≤ s.cfg.dofferLead))) ||
        decide (s.frame.mode = .fullWait))) →
    ∃ s', exec (.updateTick t) s = .next s' ∧
      (∀ given : DriveUnit, given = { u with trimGiven := trim } →
        s'.drive = if run = true then given.updateSpeed s.cfg trim u.speed else given) ∧
      s'.frame.mode = s.frame.mode ∧ s'.frame.trim = (if claims = true then 0 else trim) ∧
      s'.frame.claim = (if claims = true then
        { state := .claimed, position := none, eta := none, lastAnswer := .none, retries := 1,
          answerDue := some (max s.clock t + 10000000), pause := none } else s.frame.claim) ∧
      s'.chain = s.chain ∧ s'.pins = s.pins ∧ s'.start = s.start ∧ s'.clock = max s.clock t ∧
      (forecastDiffers s.frame.lastForecast u.measured →
        s'.frame = { s.frame with trim := s'.frame.trim, claim := s'.frame.claim, lastForecast := some u.measured,
                                  forecastDue := some (max s.clock t + 60000000 * s.cfg.forecastInterval) } ∧
        (({ dst := 255, src := s.start.strap, kind := some .forecast, fresh := false, reference := 0,
            payload := [BitVec.ofNat 8 s.start.strap, BitVec.ofNat 8 s.cfg.dofferGroup,
                BitVec.ofNat 8 (modeCode s.frame.mode)] ++ wordField u.measured ++ wordField u.fill } : Notice)
              ∈ s'.line.routine ∨ 12 ≤ s'.line.routine.length)) ∧
      (¬forecastDiffers s.frame.lastForecast u.measured →
        s'.frame = { s.frame with trim := s'.frame.trim, claim := s'.frame.claim }) ∧
      ∃ s1 : State, s' = s1.walk.rovingTick ∧ s1.table = s.table ∧ s1.pieces = s.pieces ∧ s1.roving = s.roving ∧
        s1.drive = s'.drive ∧ s1.frame = s'.frame ∧
        ∀ (claim forecast : List Notice) (note : Kind → Nat → List Byte → Notice),
          note = (fun kind dst values =>
            { dst := dst, src := s.start.strap, kind := some kind, fresh := false, reference := 0,
              payload := [BitVec.ofNat 8 s.start.strap, BitVec.ofNat 8 s.cfg.dofferGroup,
                BitVec.ofNat 8 (modeCode s.frame.mode)] ++ values }) →
          claim = (if claims = true then [note .doffClaim s.cfg.dofferStation
            (wordField u.fill ++ wordField u.measured ++ [0#8, 0#8])] else []) →
          (forecastDiffers s.frame.lastForecast u.measured →
            forecast = [note .forecast 255 (wordField u.measured ++ wordField u.fill)]) →
          (¬forecastDiffers s.frame.lastForecast u.measured → forecast = []) →
          s1.line = (s.handAll (claim ++ forecast)).line ∧ s1.tally = (s.handAll (claim ++ forecast)).tally

/-- R119 to R122, R132, R133: what an update tick makes of each supply record, with a batch delay above 0; and for any
batch delay the roving unit's work of a tick: the sections whose estimate has just become 0 run out in ascending number
and are asked for in one event, those that fall due start the batch timer. The order within it is the model's (log 20). -/
def Obligations.UpdateTickJudgesSupplies : Prop :=
  (∀ (t due : Nat) (s : State), s.start.phase = .active → s.drive.tickDue = some due → due ≤ max s.clock t →
    s.cfg.batchDelay ≠ 0 → (s.roving.recs.map (fun r => r.creel)).Nodup →
    ∃ s' rate, exec (.updateTick t) s = .next s' ∧ s'.drive.rate = rate ∧ s'.drive.d = s.drive.d ∧
      s'.roving.recs = s.roving.recs.map (fun r =>
        let remaining := r.laidLength - (s.drive.d - r.laidMark).toNat * 100 / s.cfg.draft
        let time := if remaining = 0 ∨ r.state = .runOut then some 0
          else rate.map (fun v => min 65534 (remaining * s.cfg.draft / (100 * v)))
        let r1 := { r with remaining := remaining, time := time }
        if remaining = 0 ∧ r.state ≠ .runOut then
          (if r.state = .none ∨ r.state = .due then
            { r1 with state := .runOut, asks := 1, retryAt := some (max s.clock t / 1000 + 30000), eta := none }
           else { r1 with state := .runOut })
        else if r.state = .none ∧ (remaining ≤ r.laidLength / 10 ∨ time.any (fun m => decide (m ≤ s.cfg.railLead)) = true) then
          { r1 with state := .due }
        else r1) ∧
      (s'.roving.batchDue = match s.roving.batchDue with
        | some m => some m
        | none => if s'.roving.recs.any (fun r => r.state == .due &&
            s.roving.recs.any (fun o => o.creel == r.creel && o.state == .none)) then
            some (max s.clock t / 1000 + 1000 * s.cfg.batchDelay) else none)) ∧
    (∀ s : State, ∀ estimated : List SupplyRec, estimated = s.roving.recs.map (fun r =>
        let remaining := r.laidLength - (s.drive.d - r.laidMark).toNat * 100 / s.cfg.draft
        { r with
          remaining := remaining
          time := if remaining = 0 ∨ r.state = .runOut then some 0
            else s.drive.rate.map (fun v => min 65534 (remaining * s.cfg.draft / (100 * v))) }) →
      ∀ falls : SupplyRec → Prop, falls = (fun r => r.state = .none ∧
        (r.remaining ≤ r.laidLength / 10 ∨ ∃ m, r.time = some m ∧ m ≤ s.cfg.railLead)) →
      ∃ (ran : List SupplyRec) (asked judged : State),
        ran.Perm (estimated.filter (fun r => r.remaining == 0 && r.state != .runOut)) ∧
        ran.Pairwise (fun a b => a.creel ≤ b.creel) ∧
        asked = (ran.foldl (fun u r => u.becomeRunOut r.creel)
            ({ s with roving := { s.roving with recs := estimated } } : State)).askRunOut
          ((ran.filter (fun r => r.state == .none || r.state == .due)).map (fun r => r.creel)) ∧
        (∃ recs : List SupplyRec, judged = { asked with roving := { asked.roving with recs := recs } } ∧
          recs.length = asked.roving.recs.length ∧
          ∀ (k : Nat) (r : SupplyRec), asked.roving.recs[k]? = some r →
            (falls r → recs[k]? = some { r with state := .due }) ∧ (¬falls r → recs[k]? = some r)) ∧
        ((∃ r ∈ asked.roving.recs, falls r) → s.rovingTick = judged.startBatch) ∧
        ((∀ r ∈ asked.roving.recs, ¬falls r) → s.rovingTick = judged)) ∧
    (∀ (s : State) (creel : Nat), s.becomeRunOut creel =
      ({ s with roving := { s.roving with recs := s.roving.recs.map (fun r =>
        if r.creel = creel then { r with state := .runOut, time := some 0 } else r) } } : State).runOutSpindles creel) ∧
    ∀ (s : State) (creels : List Nat), ∃ listed : List SupplyRec, ∀ recs : List SupplyRec,
      recs = s.roving.recs.map (fun r =>
        if r.creel ∈ creels then { r with asks := 1, retryAt := some (s.clock / 1000 + 30000), eta := none } else r) →
      listed.Perm (recs.filter (fun r => decide (r.creel ∈ creels))) ∧
        listed.Pairwise (fun a b => a.creel ≤ b.creel) ∧
        s.askRunOut creels = ({ s with roving := { s.roving with recs := recs } } : State).handAsks listed

/-- R44, R45, R48, R49, R57: the arithmetic of rate, forecasts and duty. -/
def Obligations.RateForecastAndDutyArithmetic : Prop :=
  (∀ u : DriveUnit, u.buckets.length ≤ 6 →
      u.tickRate.tickMark = u.d ∧ u.tickRate.eligible = u.turning ∧ u.tickRate.d = u.d ∧
      (u.eligible = false → u.tickRate.buckets = u.buckets) ∧
      (u.eligible = true → u.buckets.length < 6 →
        u.tickRate.buckets = u.buckets ++ [(u.d - u.tickMark).toNat]) ∧
      (u.eligible = true → u.buckets.length = 6 →
        u.tickRate.buckets = u.buckets.tail ++ [(u.d - u.tickMark).toNat]) ∧
      (u.tickRate.buckets.sum = 0 → u.tickRate.rate = none) ∧
      (u.tickRate.buckets.sum ≠ 0 →
        u.tickRate.rate = some (u.tickRate.buckets.sum * 6 / u.tickRate.buckets.length))) ∧
    (∀ (u : DriveUnit) (c : Settings) (trim : Nat),
      (u.fill = 1000 → u.measuredNow c = 0 ∧ u.naturalNow c trim = 0) ∧
      (u.fill ≠ 1000 → u.rate = none → u.measuredNow c = 999 ∧ u.naturalNow c trim = 999) ∧
      (∀ v, u.fill ≠ 1000 → u.rate = some v → 1 ≤ v →
        u.measuredNow c = min 998 ((10 * c.copLength - (u.d - u.copMark).toNat + v - 1) / v) ∧
        u.naturalNow c trim =
          min 998 (((10 * c.copLength - (u.d - u.copMark).toNat) * (1000 - trim) + 1000 * v - 1) / (1000 * v)) ∧
        u.naturalNow c 0 = u.measuredNow c) ∧
      u.forecasts c = { u with measured := u.measuredNow c, natural := u.naturalNow c u.trimGiven }) ∧
    ∀ (c : Settings) (speed : Nat), 1 ≤ c.sFull →
      dutyOf c speed = min 1023 ((1024 * speed + c.sFull / 2) / c.sFull) ∧ dutyOf c c.sFull = 1023

/-- R53: the target speed is the trimmed profile speed held within S_min..S_max, the clamp after the trim. -/
def Obligations.TargetSpeedIsClampedAfterTrim : Prop :=
  ∀ (c : Settings) (fill trim : Nat), c.sMin ≤ c.sMax →
    ∀ sTrim, sTrim = profileSpeed fill c.profile * (1000 - trim) / 1000 →
    targetSpeed c fill trim = min c.sMax (max c.sMin sTrim) ∧
      (c.sMax < sTrim → targetSpeed c fill trim = c.sMax) ∧
      (sTrim < c.sMin → targetSpeed c fill trim = c.sMin) ∧
      (c.sMin ≤ sTrim → sTrim ≤ c.sMax → targetSpeed c fill trim = sTrim)

/-- R51: the profile speed on a profile whose fills rise from 0: a point's own speed at its fill, the line between two
points with the floor toward minus infinity, the last speed from the last point on. -/
def Obligations.ProfileSpeedFollowsThePoints : Prop :=
  ∀ (before after : List ProfilePoint) (p q : ProfilePoint) (fill : Nat),
    ((before ++ p :: q :: after).map (fun x => x.fill)).Pairwise (fun f g => f < g) →
    (p.fill ≤ fill → fill < q.fill →
      (profileSpeed fill (before ++ p :: q :: after) : Int) =
        max 0 ((p.speed : Int) +
          Int.fdiv (((q.speed : Int) - p.speed) * ((fill : Int) - p.fill)) ((q.fill : Int) - p.fill))) ∧
    (q.fill ≤ fill → after = [] → profileSpeed fill (before ++ p :: q :: after) = q.speed) ∧
    profileSpeed p.fill (before ++ p :: q :: after) = p.speed

/-- R54, R55, R57: the reference moves to the target by at most the ramp step, from S_min at an entry from a standing mode, and
stays within S_min..S_max; the update writes its duty to the waiting stage and nothing else. -/
def Obligations.RampBoundsTheReference : Prop :=
  ∀ (c : Settings) (u : DriveUnit) (trim previous : Nat), c.sMin ≤ c.sMax → c.sMin ≤ previous → previous ≤ c.sMax →
    ∀ target, target = targetSpeed c u.fill trim →
    (target ≤ previous + c.rampStep → previous ≤ target + c.rampStep →
      (u.updateSpeed c trim previous).speed = target) ∧
    (previous + c.rampStep < target → (u.updateSpeed c trim previous).speed = previous + c.rampStep) ∧
    (target + c.rampStep < previous → (u.updateSpeed c trim previous).speed = previous - c.rampStep) ∧
    (c.sMin ≤ (u.updateSpeed c trim previous).speed ∧ (u.updateSpeed c trim previous).speed ≤ c.sMax) ∧
    (∀ speed, speed = (u.updateSpeed c trim previous).speed → u.updateSpeed c trim previous =
      { u with speed := speed, dutyWaiting := min 1023 ((1024 * speed + c.sFull / 2) / c.sFull) }) ∧
    (∀ old new : FrameMode, (new = .running ∨ new = .restart) →
      u.enterMode c trim old new = u.updateSpeed c trim
        (if old = .halted ∨ old = .stopped ∨ old = .doffing ∨ old = .doffStall then c.sMin else u.speed)) ∧
    ∀ s : State, (s.frame.mode = .running ∨ s.frame.mode = .restart) →
      s.speedTick.drive = s.drive.updateSpeed s.cfg s.frame.trim s.drive.speed

/-! ## Piecing calls -/

/-- R29, R68 to R70, R72, R77, R202: the payloads of the four notices of the dialogue, byte by byte. A due repeat of an
OPEN call broadcasts a fresh CALL; at five intervals the call is withdrawn untaken, its spindle returns to DOWN with the
re-call delay, and one walk follows (R84). -/
def Obligations.OpenCallIsRepeatedThenWithdrawn : Prop :=
  (∀ (s : State) (c : Call) (n onSide : Nat) (r : SpindleRec), n = c.spindle → s.spindle n = some r →
      onSide = (if n ≤ 24 * s.cfg.sectionsA then n else n - 24 * s.cfg.sectionsA) →
      ∀ place : List Nat, place =
        [if n ≤ 24 * s.cfg.sectionsA then 1 else 2,
         (if n ≤ 24 * s.cfg.sectionsA then 0 else 24) + ((onSide - 1) / 8 + 1 + 2) / 3,
         (onSide - 1) / 8 + 1, (onSide - 1) % 8 + 1] →
      ∀ note : Kind → Nat → List Byte → Notice, note = (fun kind dst payload =>
        { dst := dst, src := s.start.strap, kind := some kind, fresh := false, reference := c.number,
          payload := payload }) →
      (s.sideOf n = if n ≤ 24 * s.cfg.sectionsA then .A else .B) ∧
        s.sectionOf n = (if n ≤ 24 * s.cfg.sectionsA then 0 else 24) + ((onSide - 1) / 8 + 1 + 2) / 3 ∧
        s.callNotice c = note .call 255 (wordField n ++ place.map (BitVec.ofNat 8) ++
          [BitVec.ofNat 8 c.repeats, BitVec.ofNat 8 r.attempts] ++
          wordField (min 65535 (s.clock / 1000000 - r.downSince))) ∧
        s.cancelNotice c = note .cancel 255 (wordField n) ∧
        (∀ station m, c.state = .taken → c.takenAt = some m → s.assignNotice station c =
          note .assign station (wordField n ++ place.map (BitVec.ofNat 8) ++
            [BitVec.ofNat 8 ((1000 * s.cfg.piecingTimeout - (s.clock / 1000 - m)) / 1000)])) ∧
        (∀ station, c.state = .verify → s.assignNotice station c =
          note .assign station (wordField n ++ place.map (BitVec.ofNat 8) ++ [0#8])) ∧
        ∀ station,
          s.closeNotice station c.number n .pieced = note .close station (wordField n ++ [1#8]) ∧
          s.closeNotice station c.number n .noted = note .close station (wordField n ++ [2#8]) ∧
          s.closeNotice station c.number n .lapsed = note .close station (wordField n ++ [3#8]) ∧
          s.closeNotice station c.number n .cancelled = note .close station (wordField n ++ [4#8]) ∧
          s.closeNotice station c.number n .blind = note .close station (wordField n ++ [5#8]) ∧
          s.closeNotice station c.number n .runOut = note .close station (wordField n ++ [6#8]) ∧
          s.closeNotice station c.number n .takenElsewhere = note .close station (wordField n ++ [7#8]) ∧
          s.closeNotice station c.number n .gone = note .close station (wordField n ++ [8#8])) ∧
    (∀ (v : Nat), wordField v = [BitVec.ofNat 8 (v / 256), BitVec.ofNat 8 v]) ∧
    (∀ (t n : Nat) (s : State) (c : Call), s.start.phase = .active → s.liveCall n = some c → c.state = .opened →
      c.repeats < 4 → c.openedAt + 1000 * ((c.repeats + 1) * s.cfg.repeatInterval) ≤ max s.clock t / 1000 →
      ∀ again, again = { c with repeats := c.repeats + 1 } →
      exec (.callRepeat t n) s = .next
        (({ s.later t with pieces := { s.pieces with calls := s.pieces.calls.map (fun d =>
              if d.number = n then again else d) } } : State).hand ((s.later t).callNotice again))) ∧
    ∀ (t n : Nat) (s : State) (c : Call), s.start.phase = .active → s.liveCall n = some c → c.state = .opened →
      c.openedAt + 1000 * (5 * s.cfg.repeatInterval) ≤ max s.clock t / 1000 →
      ∃ s1 : State, exec (.withdrawnUntaken t n) s = .next s1.walk ∧
        s1.pieces = { s.pieces with calls := s.pieces.calls.filter (fun d => d.number != n) } ∧
        s1.line = ((s.later t).hand (s.cancelNotice c)).line ∧
        (∀ r, s.spindle c.spindle = some r → r.state = .called → s1.spindle c.spindle = some
          { r with state := .down, call := none,
                   notBefore := some (max s.clock t / 1000000 + s.cfg.recallDelay) }) ∧
        (∀ m, m ≠ c.spindle → s1.spindle m = s.spindle m) ∧ s1.table.breakList = s.table.breakList ∧
        (∀ side, s1.sideCounts side =
          (let o := s.sideCounts side
           if s.sideOf c.spindle = side then { o with untaken := min 255 (o.untaken + 1) } else o)) ∧
        s1.frame = s.frame ∧ s1.roving = s.roving ∧ s1.drive = s.drive

/-- R71, R72, R77, R28: a TAKE is answered by the state of the call of its number, from any station; a dispatcher that
can take a notice becomes busy with it (R178, log 11). -/
def Obligations.TakeIsAnsweredByTheCall : Prop :=
  ∀ (t src n spindle : Nat) (s : State), s.start.phase = .active → s.canHand t .dispatcher →
    (s.liveCall n = none → exec (.take t src n spindle) s =
      .next ((s.handed t .dispatcher).hand (s.closeNotice src n spindle .gone))) ∧
    ∀ c, s.liveCall n = some c →
      (c.state = .opened →
        ∀ taken, taken = { c with state := .taken, carriage := some src, takenAt := some (max s.clock t / 1000) } →
        ∃ s', exec (.take t src n spindle) s = .next s' ∧
          s'.pieces = { s.pieces with calls := s.pieces.calls.map (fun d => if d.number = n then taken else d) } ∧
          (∀ r, s.spindle c.spindle = some r → r.state = .called →
            s'.spindle c.spindle = some { r with state := .taken }) ∧
          (∀ m, m ≠ c.spindle → s'.spindle m = s.spindle m) ∧ s'.table.breakList = s.table.breakList ∧
          s'.line = ((s.handed t .dispatcher).hand ((s.handed t .dispatcher).assignNotice src taken)).line ∧
          s'.frame = s.frame ∧ s'.roving = s.roving ∧ s'.drive = s.drive) ∧
      (c.state ≠ .opened → c.carriage = some src → exec (.take t src n spindle) s =
        .next ((s.handed t .dispatcher).hand ((s.handed t .dispatcher).assignNotice src c))) ∧
      (c.state ≠ .opened → c.carriage ≠ some src → exec (.take t src n spindle) s =
        .next ((s.handed t .dispatcher).hand (s.closeNotice src n c.spindle .takenElsewhere)))

/-- R73 to R76, R30: a DONE is answered by the call of its number and its sender. A failed attempt ends in one walk.
That the roving unit is told of NO-ROVING before that walk is the model's choice, which R75 and R84 leave open (log 40).
A dispatcher that can take a notice becomes busy with it (R178, log 11). -/
def Obligations.DoneIsAnsweredByTheCall : Prop :=
  ∀ (t src n spindle result reason : Nat) (s : State), s.start.phase = .active → s.canHand t .dispatcher →
    (s.liveCall n = none → exec (.done t src n spindle result reason) s =
      .next ((s.handed t .dispatcher).hand (s.closeNotice src n spindle .gone))) ∧
    ∀ c, s.liveCall n = some c →
      (c.state = .opened → exec (.done t src n spindle result reason) s =
        .next ((s.handed t .dispatcher).hand (s.closeNotice src n spindle .gone))) ∧
      (c.state ≠ .opened → c.carriage ≠ some src → exec (.done t src n spindle result reason) s =
        .next ((s.handed t .dispatcher).hand (s.closeNotice src n c.spindle .takenElsewhere))) ∧
      (c.state = .taken → c.carriage = some src → result = 1 → exec (.done t src n spindle result reason) s =
        .next { s.handed t .dispatcher with pieces := { s.pieces with calls := s.pieces.calls.map (fun d =>
          if d.number = n then
            { d with state := .verify, verifyUntil := some (max s.clock t / 1000 + s.pieces.verifyInUse) }
          else d) } }) ∧
      (c.state = .verify → c.carriage = some src → result = 1 → exec (.done t src n spindle result reason) s =
        .next (s.handed t .dispatcher)) ∧
      (c.state ≠ .opened → c.carriage = some src → result ≠ 1 →
        ∃ s1 : State, exec (.done t src n spindle result reason) s = .next
            (if reason = 1 then (s1.recordBreak (s.sectionOf c.spindle)).walk else s1.walk) ∧
          s1 = ((((s.handed t .dispatcher).freeCall n).hand
                (s.closeNotice src n c.spindle .noted)).countFailed c.spindle).failedAttempt c.spindle)

/-- R30, R75, R79, R80, R84: the piecing timeout of a TAKEN call and the verify window of a VERIFY call end it with a
failed attempt, which returns the spindle to DOWN with the re-call delay or locks it; one walk follows. -/
def Obligations.TimedOutCallsAreFailedAttempts : Prop :=
  (∀ (t n : Nat) (s : State) (c : Call) (m : Nat), s.start.phase = .active → s.liveCall n = some c →
      c.state = .taken → c.takenAt = some m → m + 1000 * s.cfg.piecingTimeout ≤ max s.clock t / 1000 →
      exec (.piecingTimeout t n) s = .next
        ((((((s.later t).freeCall n).hand
              (s.closeNotice (c.carriage.getD 0) n c.spindle .lapsed)).countLapsed c.spindle).failedAttempt
                c.spindle).walk)) ∧
    (∀ (t n : Nat) (s : State) (c : Call) (m : Nat), s.start.phase = .active → s.liveCall n = some c →
      c.state = .verify → c.verifyUntil = some m → m ≤ max s.clock t / 1000 →
      exec (.verifyWindowCloses t n) s = .next
        ((((((s.later t).freeCall n).hand
              (s.closeNotice (c.carriage.getD 0) n c.spindle .noted)).countFailed c.spindle).failedAttempt
                c.spindle).walk)) ∧
    (∀ (s : State) (n : Nat), s.freeCall n =
      { s with pieces := { s.pieces with calls := s.pieces.calls.filter (fun c => c.number != n) } }) ∧
    ∀ (s : State) (n : Nat) (r : SpindleRec), s.spindle n = some r → r.state = .taken →
      (r.attempts + 1 < s.cfg.maxAttempts →
        (s.failedAttempt n).spindle n = some { r with state := .down, call := none, attempts := r.attempts + 1,
                                                      notBefore := some (s.second + s.cfg.recallDelay) } ∧
          (s.failedAttempt n).table.breakList = s.table.breakList ∧ (s.failedAttempt n).tally = s.tally) ∧
      (s.cfg.maxAttempts ≤ r.attempts + 1 →
        (s.failedAttempt n).spindle n = some { r with state := .locked, call := none,
                                                      attempts := s.cfg.maxAttempts, notBefore := none } ∧
          (∀ m, m ∈ (s.failedAttempt n).table.breakList ↔ m ∈ s.table.breakList ∧ m ≠ n) ∧
          ∀ side, (s.failedAttempt n).sideCounts side =
            (let o := s.sideCounts side
             if s.sideOf n = side then { o with locked := min 255 (o.locked + 1) } else o)) ∧
      (∀ m, m ≠ n → (s.failedAttempt n).spindle m = s.spindle m) ∧
      ∀ side, (s.countFailed n).sideCounts side =
          (let o := s.sideCounts side
           if s.sideOf n = side then { o with failed := min 255 (o.failed + 1) } else o) ∧
        (s.countLapsed n).sideCounts side =
          (let o := s.sideCounts side
           if s.sideOf n = side then { o with lapsed := min 255 (o.lapsed + 1) } else o)

/-- R64 to R68: a walk opens nothing unless the four conditions hold; it keeps the live calls and adds calls for the spindles
that R67 chooses, from the head of the break list on: the oldest that wait, as many as the open-call limit lets in. Each call
takes the serial as its number, which moves on past 0 and the live numbers, and one CALL for each is handed in order. -/
def Obligations.WalkOpensTheOldestBreaks : Prop :=
  ∀ s : State,
    (¬s.callsMayOpen → s.walk = s) ∧
    (s.table.breakList.Nodup → ∃ opened : List Call, s.walk.pieces.calls = s.pieces.calls ++ opened ∧
      (opened.map (fun c => c.spindle)).Sublist s.table.breakList ∧
      (∀ c ∈ opened, c.state = .opened ∧ c.openedAt = s.clock / 1000 ∧ c.repeats = 0 ∧ c.carriage = none ∧
        c.takenAt = none ∧ c.verifyUntil = none ∧ s.endWaits c.spindle ∧
        ∀ r, s.spindle c.spindle = some r → s.walk.spindle c.spindle =
          some { r with state := .called, call := some c.number, notBefore := none }) ∧
      (s.pieces.calls.length ≤ s.cfg.openCallLimit →
        (s.pieces.calls ++ opened).length ≤ s.cfg.openCallLimit) ∧
      (s.callsMayOpen → ∃ waiting : List Nat, waiting.Sublist s.table.breakList ∧
        (∀ n, n ∈ waiting ↔ n ∈ s.table.breakList ∧ s.endWaits n) ∧
        opened.map (fun c => c.spindle) = waiting.take (s.cfg.openCallLimit - s.pieces.calls.length)) ∧
      (s.callsMayOpen → ∀ n ∈ s.table.breakList, n ∉ opened.map (fun c => c.spindle) → s.endWaits n →
        s.cfg.openCallLimit ≤ (s.pieces.calls ++ opened).length) ∧
      s.walk.table.breakList = s.table.breakList ∧
      (∀ n, n ∉ opened.map (fun c => c.spindle) → s.walk.spindle n = s.spindle n) ∧
      (s.serialInRange → s.cfg.openCallLimit ≤ 8 →
        takesSerials (s.pieces.calls.map (fun c => c.number)) s.pieces.serial (opened.map (fun c => c.number))
          s.walk.pieces.serial) ∧
      s.walk.line = (s.handAll (opened.map s.callNotice)).line ∧
      s.walk.tally = (s.handAll (opened.map s.callNotice)).tally)

/-! ## Frame mode and doffing -/

/-- R93, R97, R98, R204: a rise of run permit that its filter takes, and one that it does not (log 36). That a completed
doff's STOPPED goes to RUNNING is the model's reading (log 25), and so are the level kept in the other phases (log 27) and,
of an entry to FULL-STOP, the mode that its DOFF-CLAIM carries (log 30), the value of its FORECAST (log 32) and the place of
the claim behind the notices of the ended calls (log 38). -/
def Obligations.RunPermitRiseStartsTheFrame : Prop :=
  ∀ (t : Nat) (s s1 : State), s1 = s.changed t .runPermit true →
    (s.start.phase ≠ .off → s.start.phase ≠ .inReset → s.start.phase ≠ .active → s.mayChange t .runPermit true →
      exec (.runPermitRise t) s = .next s1) ∧
    (s.start.phase ≠ .off → s.start.phase ≠ .inReset → ¬s.mayChange t .runPermit true →
      exec (.runPermitRise t) s = .next (s.later t)) ∧
    (s.start.phase = .active → s.mayChange t .runPermit true →
      ((s.frame.mode = .halted ∨ s.frame.mode = .stopped) → s.pins.driveFault = false →
        ∃ s', exec (.runPermitRise t) s = .next s' ∧
          s1.changedMode (if s.drive.fill < 1000 then .running else .fullStop) none s') ∧
      (s.frame.mode = .stopped → s.pins.driveFault = true → exec (.runPermitRise t) s = .next
        { s1 with frame := { s.frame with reason := some .drive } }) ∧
      (s.frame.mode = .halted → s.pins.driveFault = true → exec (.runPermitRise t) s = .next s1) ∧
      (s.frame.mode ≠ .halted → s.frame.mode ≠ .stopped → exec (.runPermitRise t) s = .next s1))

/-- R94, R96 to R98, R204: a fall of run permit, a press of the stop button and an assertion of the drive fault input that
their filters take, and those that they do not. -/
def Obligations.OperatorAndDriveStopTheFrame : Prop :=
  (∀ (t : Nat) (s s1 : State) (c : Instr), s.start.phase = .active →
      ((c = .runPermitFall t ∧ s.mayChange t .runPermit false ∧ s1 = s.changed t .runPermit false) ∨
        (c = .stopButton t ∧ s.mayChange t .stop true ∧ s1 = s.changed t .stop true)) →
      ((s.frame.mode = .running ∨ s.frame.mode = .restart ∨ s.frame.mode = .fullStop) →
        ∃ s', exec c s = .next s' ∧ s1.changedMode .stopped (some .operator) s') ∧
      ((s.frame.mode = .fullWait ∨ s.frame.mode = .doffing ∨ s.frame.mode = .doffStall) →
        exec c s = .next { s1 with frame := { s.frame with permitDropped := true } }) ∧
      ((s.frame.mode = .halted ∨ s.frame.mode = .stopped) → exec c s = .next s1)) ∧
    (∀ (t : Nat) (s s1 : State), s.start.phase = .active → s.mayChange t .driveFault true →
      s1 = s.changed t .driveFault true →
      ((s.frame.mode = .running ∨ s.frame.mode = .restart ∨ s.frame.mode = .fullStop) →
        ∃ s', exec (.driveFault t) s = .next s' ∧ s1.changedMode .stopped (some .drive) s') ∧
      (s.frame.mode = .stopped →
        exec (.driveFault t) s = .next { s1 with frame := { s.frame with reason := some .drive } }) ∧
      ((s.frame.mode = .halted ∨ s.frame.mode = .fullWait ∨ s.frame.mode = .doffing ∨ s.frame.mode = .doffStall) →
        exec (.driveFault t) s = .next s1)) ∧
    ∀ (t : Nat) (s : State), s.start.phase = .active →
      (¬s.mayChange t .runPermit false → exec (.runPermitFall t) s = .next (s.later t)) ∧
      (¬s.mayChange t .stop true → exec (.stopButton t) s = .next (s.later t)) ∧
      (¬s.mayChange t .driveFault true → exec (.driveFault t) s = .next (s.later t))

/-- R94, R96, R99: the three timers of the frame and doff unit and the at-doff-position input; R90, R204: a change of an
input is taken when its level differs and 10 ms have passed since the last one taken (log 36), the inputs that fall back
change their level alone, and so does every input while the part is not active (log 27). -/
def Obligations.TimersAndDoffPositionMoveTheFrame : Prop :=
  (∀ (t due : Nat) (s : State), s.start.phase = .active → due ≤ max s.clock t →
      (s.frame.mode = .restart → s.frame.graceDue = some due →
        ∃ s', exec (.restartGrace t) s = .next s' ∧ (s.later t).changedMode .running none s') ∧
      (s.frame.mode = .fullStop → s.frame.positionDue = some due →
        ∃ s', exec (.positionTimeout t) s = .next s' ∧ (s.later t).changedMode .stopped (some .position) s') ∧
      (s.frame.mode = .doffing → s.frame.doffingDue = some due →
        ∃ s', exec (.doffingTimeout t) s = .next s' ∧ (s.later t).changedMode .doffStall none s')) ∧
    (∀ (t : Nat) (s s1 : State), s.start.phase = .active → s.mayChange t .atDoff true →
      s1 = s.changed t .atDoff true →
      (s.frame.mode = .fullStop →
        ∃ s', exec (.atDoffPosition t) s = .next s' ∧ s1.changedMode .fullWait none s') ∧
      (s.frame.mode ≠ .fullStop → exec (.atDoffPosition t) s = .next s1)) ∧
    (∀ (c : Instr) (t : Nat) (i : Input) (level : Bool) (s : State), movesInput c = some (t, i, level) →
      (s.start.phase ≠ .off → s.start.phase ≠ .inReset → ¬s.mayChange t i level →
        exec c s = .next (s.later t)) ∧
      (s.start.phase ≠ .off → s.start.phase ≠ .inReset → s.mayChange t i level →
        (s.start.phase ≠ .active ∨ c = .driveFaultClears t ∨ c = .atDoffPositionClears t ∨
          ∃ button, c = .buttonRelease t button) →
        exec c s = .next (s.changed t i level)) ∧
      ((s.start.phase = .off ∨ s.start.phase = .inReset) → exec c s = .next
        { s with pins := if s.pins.level i = level then s.pins else s.pins.take i level none })) ∧
    (∀ (p : Pins) (i : Input) (level : Bool) (moment : Option Nat),
      (p.take i level moment).level i = level ∧ (p.take i level moment).changes.of i = moment ∧
        ∀ j, j ≠ i → (p.take i level moment).level j = p.level j ∧
          (p.take i level moment).changes.of j = p.changes.of j) ∧
    ∀ p : Pins, p.level .runPermit = p.runPermit ∧ p.level .driveFault = p.driveFault ∧ p.level .atDoff = p.atDoff ∧
      p.level .stop = p.stop ∧ p.level .doffDone = p.doffDone ∧ p.level .clearA = p.clearA ∧ p.level .clearB = p.clearB

/-- R98, R99, R101, R108, R109, R111: DOFF-START, DOFF-ABORT with the claim it makes at once, and what is ignored or refused
of the doffer's notices, each handed to a frame and doff unit that can take it (R178, log 11). -/
def Obligations.DofferStartsAndAborts : Prop :=
  (∀ (t : Nat) (s : State), s.start.phase = .active → s.canHand t .frameDoff →
      (s.frame.mode = .fullWait → ∃ s', exec (.doffStart t s.cfg.dofferStation) s = .next s' ∧
        ({ s.handed t .frameDoff with frame := { s.frame with
            doffStartAt := some (s.frame.doffStartAt.getD (max s.clock t / 1000000))
            claim := Claim.idle } } : State).changedMode .doffing none s') ∧
      (s.frame.mode ≠ .fullWait → exec (.doffStart t s.cfg.dofferStation) s = .next ((s.handed t .frameDoff).hand
        { dst := s.cfg.dofferStation, src := s.start.strap, kind := some .doffRefuse, fresh := false, reference := 0,
          payload := [1#8, BitVec.ofNat 8 (modeCode s.frame.mode)] })) ∧
      ((s.frame.mode = .doffing ∨ s.frame.mode = .doffStall) →
        ∃ s1 s', exec (.doffAbort t s.cfg.dofferStation) s = .next s' ∧
          (s.handed t .frameDoff).changedMode .fullWait none s1 ∧
          s' = ({ s1 with frame := { s1.frame with
              claim := Claim.madeAt (max s.clock t) .none, trim := 0 } } : State).hand
            { dst := s.cfg.dofferStation, src := s.start.strap, kind := some .doffClaim, fresh := false, reference := 0,
              payload := [BitVec.ofNat 8 s.start.strap, BitVec.ofNat 8 s.cfg.dofferGroup, 4#8] ++
                wordField s.drive.fill ++ wordField s.drive.measured ++ [0#8, 0#8] }) ∧
      (s.frame.mode ≠ .doffing → s.frame.mode ≠ .doffStall →
        exec (.doffAbort t s.cfg.dofferStation) s = .next (s.handed t .frameDoff)) ∧
      (s.frame.mode ≠ .doffing → s.frame.mode ≠ .doffStall → ¬(s.frame.mode = .halted ∧ s.drive.fill = 1000) →
        exec (.doffEnd t s.cfg.dofferStation) s = .next (s.handed t .frameDoff))) ∧
    ∀ (t src : Nat) (s : State) (c : Instr), s.start.phase = .active → s.canHand t .frameDoff →
      src ≠ s.cfg.dofferStation →
      (c = .doffStart t src ∨ c = .doffEnd t src ∨ c = .doffAbort t src ∨ (∃ n, c = .doffQueued t src n) ∨
        ∃ n, c = .doffGrant t src n) →
      exec c s = .next (s.handed t .frameDoff)

/-- R36, R46, R48, R49, R93, R99, R100, R103, R111: the completed doff, by a DOFF-END that is handed to a unit that can take
it (R178, log 11) or by a press of the button that its filter takes (R204). In HALTED a FORECAST follows exactly when the
measured forecast has moved (log 12). That the natural forecast the doff computes already takes trim 0 is the model's reading of
"0 after a doff" (log 31). -/
def Obligations.CompletedDoffBeginsTheNextCop : Prop :=
  ∀ (t : Nat) (s s0 s1 : State) (c : Instr) (wait : Nat), s.start.phase = .active →
    ((c = .doffEnd t s.cfg.dofferStation ∧ s.canHand t .frameDoff ∧ s0 = s.handed t .frameDoff) ∨
      (c = .doffDoneButton t ∧ s.mayChange t .doffDone true ∧ s0 = s.changed t .doffDone true)) →
    wait = (match s.frame.fullAt with
      | none => 0
      | some f => (s.frame.doffStartAt.getD (max s.clock t / 1000000) - f) / 60) →
    s1 = { s0 with
      drive := { s.drive with
        copMark := s.drive.d
        fullLatch := false
        fill := 0
        measured := match s.drive.rate with
          | none => 999
          | some v => min 998 ((10 * s.cfg.copLength + v - 1) / v)
        natural := match s.drive.rate with
          | none => 999
          | some v => min 998 ((10 * s.cfg.copLength * 1000 + 1000 * v - 1) / (1000 * v))
        trimGiven := 0 }
      table := { s.table with
        recs := s.table.recs.map (fun r =>
          if r.state = .locked ∨ r.state = .held then r
          else { r with
            state := .up, run := if r.state = .up then r.run else 0, attempts := 0, notBefore := none, call := none,
            upMark := s.drive.d,
            length := if r.state = .up then min 16777215 (r.length + (s.drive.d - r.upMark).toNat) else r.length })
        breakList := [] }
      tally := { s.tally with opened := { s.tally.opened with counts := { s.tally.opened.counts with
        doffs := min 255 (s.tally.opened.counts.doffs + 1)
        dofferWait := min 65535 (s.tally.opened.counts.dofferWait + wait) } } }
      frame := { s.frame with claim := Claim.idle, doffingDue := none, fullAt := none, doffStartAt := none,
                              permitDropped := false } } →
    ((s.frame.mode = .doffing ∨ s.frame.mode = .doffStall) → ∃ s', exec c s = .next s' ∧
      (s.pins.driveFault = true → s1.changedMode .stopped (some .drive) s') ∧
      (s.pins.driveFault = false → (s.pins.runPermit = false ∨ s.frame.permitDropped = true) →
        s1.changedMode .stopped (some .operator) s') ∧
      (s.pins.driveFault = false → s.pins.runPermit = true → s.frame.permitDropped = false →
        s1.changedMode .restart none s')) ∧
    (s.frame.mode = .halted → s.drive.fill = 1000 → c = .doffEnd t s.cfg.dofferStation →
      (¬forecastDiffers s.frame.lastForecast s1.drive.measured → exec c s = .next s1) ∧
      (forecastDiffers s.frame.lastForecast s1.drive.measured → exec c s = .next
        (({ s1 with frame := { s1.frame with
              lastForecast := some s1.drive.measured
              forecastDue := some (max s.clock t + 60000000 * s.cfg.forecastInterval) } } : State).hand
          { dst := 255, src := s.start.strap, kind := some .forecast, fresh := false, reference := 0,
            payload := [BitVec.ofNat 8 s.start.strap, BitVec.ofNat 8 s.cfg.dofferGroup, 0#8] ++
              wordField s1.drive.measured ++ wordField 0 }))) ∧
    (s.frame.mode ≠ .doffing → s.frame.mode ≠ .doffStall → c = .doffDoneButton t → exec c s = .next s0)

/-- R103, R108 to R111, R115, R178: the answers to a claim, its repeats, its silence, the end of the pause, and the interval of
FORECAST. The record that the fifth silence leaves, with no last answer and no retries, is the model's reading (log 13);
an answer is handed to a unit that can take it (log 11). -/
def Obligations.ClaimIsAnsweredRepeatedAndPaused : Prop :=
  [FrameMode.halted, .running, .restart, .fullStop, .fullWait, .doffing, .doffStall, .stopped].map modeCode =
      List.range 8 ∧
    (∀ (t n : Nat) (s : State), s.start.phase = .active → s.canHand t .frameDoff →
      (s.frame.claim.state = .none → exec (.doffQueued t s.cfg.dofferStation n) s =
          .next (s.handed t .frameDoff) ∧
        exec (.doffGrant t s.cfg.dofferStation n) s = .next (s.handed t .frameDoff)) ∧
      (s.frame.claim.state ≠ .none →
        (∀ p, p = (if 1 ≤ n ∧ n ≤ 15 then n else 15) →
          exec (.doffQueued t s.cfg.dofferStation n) s = .next { s.handed t .frameDoff with frame := { s.frame with claim :=
            { state := .queued, position := some p, eta := none, lastAnswer := .position p, retries := 0,
              answerDue := none, pause := none } } }) ∧
        exec (.doffGrant t s.cfg.dofferStation n) s = .next { s.handed t .frameDoff with frame := { s.frame with claim :=
            { state := .granted, position := none, eta := some n, lastAnswer := .eta n, retries := 0,
              answerDue := none, pause := none } } })) ∧
    (∀ (t due : Nat) (s : State), s.start.phase = .active → s.frame.claim.state = .claimed →
      s.frame.claim.answerDue = some due → due ≤ max s.clock t →
      (s.frame.claim.retries < 5 → exec (.claimAnswerWait t) s = .next
        (({ s.later t with frame := { s.frame with claim := { s.frame.claim with
              retries := s.frame.claim.retries + 1, answerDue := some (max s.clock t + 10000000) } } } : State).hand
          { dst := s.cfg.dofferStation, src := s.start.strap, kind := some .doffClaim, fresh := false, reference := 0,
            payload := [BitVec.ofNat 8 s.start.strap, BitVec.ofNat 8 s.cfg.dofferGroup,
                BitVec.ofNat 8 (modeCode s.frame.mode)] ++ wordField s.drive.fill ++ wordField s.drive.measured ++
              (match s.frame.claim.lastAnswer with
                | .none => [0#8, 0#8]
                | .position p => [1#8, BitVec.ofNat 8 p]
                | .eta e => [2#8, BitVec.ofNat 8 e]) })) ∧
      (5 ≤ s.frame.claim.retries → exec (.claimAnswerWait t) s = .next
        { s.later t with
          frame := { s.frame with claim := { Claim.idle with pause := some (max s.clock t / 1000 + 60000) } }
          tally := { s.tally with opened := { s.tally.opened with counts := { s.tally.opened.counts with
            dofferSilent := min 255 (s.tally.opened.counts.dofferSilent + 1) } } } })) ∧
    (∀ (t m : Nat) (s : State), s.start.phase = .active → s.frame.claim.pause = some m → m ≤ max s.clock t / 1000 →
      ∀ claims, claims = (s.frame.claim.state = .none ∧
        ((opensCalls s.frame.mode ∧
          (s.cfg.claimFill ≤ s.drive.fill ∨ s.drive.measured ≤ s.cfg.dofferLead)) ∨ s.frame.mode = .fullWait)) →
      (claims → exec (.claimPause t) s = .next
        (({ s.later t with frame := { s.frame with
              claim := Claim.madeAt (max s.clock t) .none, trim := 0 } } : State).hand
          { dst := s.cfg.dofferStation, src := s.start.strap, kind := some .doffClaim, fresh := false, reference := 0,
            payload := [BitVec.ofNat 8 s.start.strap, BitVec.ofNat 8 s.cfg.dofferGroup,
                BitVec.ofNat 8 (modeCode s.frame.mode)] ++ wordField s.drive.fill ++ wordField s.drive.measured ++
              [0#8, 0#8] })) ∧
      (¬claims → exec (.claimPause t) s = .next
        { s.later t with frame := { s.frame with claim := { s.frame.claim with pause := none } } })) ∧
    ∀ (t due : Nat) (s : State), s.start.phase = .active → s.frame.forecastDue = some due → due ≤ max s.clock t →
      exec (.forecastInterval t) s = .next
        (({ s.later t with frame := { s.frame with
              lastForecast := some s.drive.measured
              forecastDue := some (max s.clock t + 60000000 * s.cfg.forecastInterval) } } : State).hand
          { dst := 255, src := s.start.strap, kind := some .forecast, fresh := false, reference := 0,
            payload := [BitVec.ofNat 8 s.start.strap, BitVec.ofNat 8 s.cfg.dofferGroup,
                BitVec.ofNat 8 (modeCode s.frame.mode)] ++ wordField s.drive.measured ++ wordField s.drive.fill })

/-- R105, R106: the peers the frame yields to and the trim they give. -/
def Obligations.TrimFollowsTheDoffOutlook : Prop :=
  (∀ (s : State) (natural m : Nat), m ∈ s.yieldedTo natural ↔
      ∃ p ∈ s.line.peers, ∃ f, p.forecast = some f ∧ p.kind = .frame ∧ p.group = some s.cfg.dofferGroup ∧
        s.clock / 1000 ≤ f.received + 3 * (60000 * s.cfg.forecastInterval) ∧ f.minutes ≠ 999 ∧
        m = (if f.mode = .fullStop ∨ f.mode = .fullWait ∨ f.mode = .doffing ∨ f.mode = .doffStall then 0
          else f.minutes - (s.clock / 1000 - f.received) / 60000) ∧
        natural < m + s.cfg.slotWidth ∧ m < natural + s.cfg.slotWidth ∧
        (m < natural ∨ (m = natural ∧ p.station < s.start.strap))) ∧
    ∀ (c : Settings) (natural : Nat) (peers : List Nat),
      (peers = [] → trimFor c natural peers = 0) ∧
      ∀ last ∈ peers, (∀ m ∈ peers, m ≤ last) →
        (trimFor c natural peers = min c.maxTrim (1000 - 1000 * natural / (last + c.slotWidth))) ∧
        (last + c.slotWidth ≤ natural → 1 ≤ c.slotWidth → trimFor c natural peers = 0)

/-- R1 to R4, R13, R21, R57 to R59, R91, R165, R166, R171, R175, R191, R194, R196, R204: the output levels: the frame's own;
those of each chain, low for a side with no chain and while the part is not active; those of the configuration port; and
the line, driven by the Manchester halves of a notice's bits and of a jam. The form of the pulses and of the levels between
passes is the model's (log 24), the jam's first bit and the port's data are free values (log 35). -/
def Obligations.OutputsFollowModeAndCauses : Prop :=
  (∀ s : State,
    (s.driveEnable = true ↔ s.start.phase = .active ∧
      (s.frame.mode = .running ∨ s.frame.mode = .restart ∨ s.frame.mode = .fullStop)) ∧
    (s.doffRequest = true ↔ s.start.phase = .active ∧ s.frame.mode = .fullStop) ∧
    (s.doffLamp = true ↔ s.underWay ∧ s.drive.fill = 1000) ∧
    (s.faultLamp = true ↔ s.start.phase = .configFault ∨ (s.underWay ∧
      (0 < s.line.clash ∨ s.chain.sideA.trailerMissing = 3 ∨ s.chain.sideB.trailerMissing = 3 ∨
        s.frame.mode = .doffStall ∨ (s.frame.mode = .stopped ∧
          (s.frame.reason = some .drive ∨ s.frame.reason = some .position))))) ∧
    ((s.start.phase = .off ∨ s.start.phase = .inReset ∨ s.start.phase = .configFault) → s.pwmShare = 0) ∧
    ((s.start.phase = .reading ∨ s.underWay) → s.pwmShare = s.drive.dutyRunning)) ∧
    (∀ (s : State) (side : Side),
      ((s.start.phase ≠ .active ∨ s.modulesOf side = 0) → s.chainPins side = ⟨false, false, false, false⟩) ∧
      (s.start.phase = .active → s.modulesOf side ≠ 0 →
        ((s.chainPins side).clocking = true ↔ ∃ f, s.chain.flight = some f ∧ f.pass.side = side ∧
          s.clock < f.since +
            (if f.pass.kind = .sense then 9 * s.modulesOf side + 12 else 16 * s.modulesOf side) * s.chainPeriod) ∧
        ((s.chainPins side).load = true ↔ (s.chain.side side).loadedAt = some s.clock) ∧
        ((s.chainPins side).latch = true ↔ (s.chain.side side).latchedAt = some s.clock) ∧
        ((s.chainPins side).data = true ↔ ∃ f, s.chain.flight = some f ∧ f.pass = ⟨side, .drive⟩ ∧
          (f.bits.reverse.flatMap (fun b => [b.lamp, b.clamp]))[(s.clock - f.since) / s.chainPeriod]? = some true))) ∧
    (∀ s : State,
      (s.start.phase = .reading → s.clock < s.start.phaseStart + 10560 →
        s.configPins.selected = true ∧ s.configPins.clocking = true) ∧
      ((s.start.phase ≠ .reading ∨ s.start.phaseStart + 10560 ≤ s.clock) → s.configPins = ⟨false, false, false⟩)) ∧
    (∀ s : State,
      ((s.start.phase ≠ .active ∨ s.line.flight = none ∨
        ∃ f ends, s.line.flight = some f ∧ f.phase = .backingOff ends) → s.lineLevel = none) ∧
      (∀ f since k bit, s.start.phase = .active → s.line.flight = some f → f.phase = .sending since →
        f.notice.wireBits[k]? = some bit → since + k * s.bitTime ≤ s.clock →
        s.clock < since + (k + 1) * s.bitTime →
        s.lineLevel = some (if 2 * (s.clock - (since + k * s.bitTime)) < s.bitTime then bit else !bit))) ∧
    (∃ first : Nat → Bool, ∀ (s : State) (f : SendFlight) (ends k : Nat), s.start.phase = .active →
      s.line.flight = some f → f.phase = .jamming ends → k < 32 → ends + k * s.bitTime ≤ s.clock + 32 * s.bitTime →
      s.clock + 32 * s.bitTime < ends + (k + 1) * s.bitTime →
      ∀ bit, bit = (if k % 2 = 0 then first ends else !(first ends)) →
      s.lineLevel = some (if 2 * (s.clock + 32 * s.bitTime - (ends + k * s.bitTime)) < s.bitTime then bit
        else !bit)) ∧
    (∀ s : State, (s.cfg.lineRate = 0 → s.bitTime = 8) ∧ (s.cfg.lineRate = 1 → s.bitTime = 4) ∧
      (s.cfg.lineRate = 2 → s.bitTime = 2) ∧ (s.cfg.chainClock = 0 → s.chainPeriod = 8) ∧
      (s.cfg.chainClock = 1 → s.chainPeriod = 4) ∧ (s.cfg.chainClock = 2 → s.chainPeriod = 2) ∧
      (s.cfg.chainClock = 3 → s.chainPeriod = 1)) ∧
    ∀ (n : Notice) (kind : Kind) (body : List Byte), n.kind = some kind →
      body = [BitVec.ofNat 8 n.dst, BitVec.ofNat 8 n.src, BitVec.ofNat 8 kind.code, if n.fresh = true then 1#8 else 0#8] ++
        wordField n.reference ++ [BitVec.ofNat 8 n.payload.length] ++ n.payload →
      n.wireBits = (List.range 14).map (fun k => k % 2 == 0) ++ [true, true] ++
        (body ++ wordField (checkOf body).toNat).flatMap (fun b => (List.range 8).map (fun k => b.getLsbD (7 - k)))

/-! ## Roving supply -/

/-- R118, R122 to R124, R202: the end of the batch timer, its start, with a batch delay of 0 its end in the same event; the
order in which the gathered sections are asked for, by time to run-out; and the notices that a number of sections is divided
into, each with its payload. -/
def Obligations.BatchTimerAsksForDueSections : Prop :=
  (∀ (t m : Nat) (s : State), s.start.phase = .active → s.roving.batchDue = some m → m ≤ max s.clock t / 1000 →
      exec (.batchTimer t) s = .next (s.later t).batchRunsOut ∧
      ((∀ r ∈ s.roving.recs, r.state ≠ .due) → exec (.batchTimer t) s = .next
        { s.later t with roving := { s.roving with batchDue := none } }) ∧
      ((∃ r ∈ s.roving.recs, r.state = .due) →
        ∀ gathered : List SupplyRec, gathered = s.roving.recs.filter (fun r => r.state == .due ||
            (r.state == .none && r.time.any (fun x => decide (x ≤ s.cfg.railLead + s.cfg.lookahead)))) →
        ∃ s', exec (.batchTimer t) s = .next s' ∧ s'.roving.batchDue = none ∧
          s'.roving.recs = s.roving.recs.map (fun r =>
            if r ∈ gathered then
              { r with state := .asked, asks := 1, retryAt := some (max s.clock t / 1000 + 30000) }
            else r) ∧
          s'.line.routine = s.line.routine ∧ s'.table = s.table ∧ s'.pieces = s.pieces ∧ s'.drive = s.drive ∧
          s'.frame = s.frame ∧
          (gathered.length ≤ 12 → s.line.urgent.length < 12 → ∃ (ask : Notice) (listed : List SupplyRec),
            s'.line.urgent = s.line.urgent ++ [ask] ∧ ask.kind = some .rovingAsk ∧ ask.dst = s.cfg.railStation ∧
            ask.src = s.start.strap ∧ ask.reference = s.roving.askSeq ∧ listed.Perm gathered ∧
            listed.Pairwise (fun a b => a.creel ≤ b.creel) ∧
            ask.payload.take 1 = [BitVec.ofNat 8 s.start.strap] ∧
            (∀ k, 1 ≤ k → k ≤ 48 →
              ((ask.payload.getD (1 + (k - 1) / 8) 0#8).getLsbD (7 - (k - 1) % 8) = true ↔
                ∃ r ∈ gathered, r.creel = k)) ∧
            ask.payload.drop 7 = listed.flatMap (fun r => wordField (r.time.getD 65535))))) ∧
    (∀ (s idle : State) (gathered : List SupplyRec), idle = { s with roving := { s.roving with batchDue := none } } →
      gathered = s.roving.recs.filter (fun r => r.state == .due ||
        (r.state == .none && r.time.any (fun x => decide (x ≤ s.cfg.railLead + s.cfg.lookahead)))) →
      ((∀ r ∈ s.roving.recs, r.state ≠ .due) → s.batchRunsOut = idle) ∧
      ((∃ r ∈ s.roving.recs, r.state = .due) → ∃ (listed : List SupplyRec) (asked : State),
        inAskOrder listed gathered ∧ asked = idle.handAsks listed ∧
        s.batchRunsOut = { asked with roving := { asked.roving with recs := s.roving.recs.map (fun r =>
          if r ∈ gathered then { r with state := .asked, asks := 1, retryAt := some (s.clock / 1000 + 30000) }
          else r) } })) ∧
    (∀ s : State,
      ((∃ m, s.roving.batchDue = some m) → s.startBatch = s) ∧
      (s.roving.batchDue = none → s.cfg.batchDelay = 0 → s.startBatch = s.batchRunsOut) ∧
      (s.roving.batchDue = none → s.cfg.batchDelay ≠ 0 → s.startBatch =
        { s with roving := { s.roving with batchDue := some (s.clock / 1000 + 1000 * s.cfg.batchDelay) } })) ∧
    (∀ (s : State) (recs : List SupplyRec), s.handAsks recs =
      (chunks 12 recs.length recs).foldl (fun u part => u.handAsk part) s) ∧
    (∀ (s : State) (part : List SupplyRec), part.length ≤ 12 → ∃ (ask : Notice) (listed : List SupplyRec),
      s.handAsk part = ({ s with roving := { s.roving with
        askSeq := if s.roving.askSeq < 65535 then s.roving.askSeq + 1 else 1 } } : State).hand ask ∧
      ask.kind = some .rovingAsk ∧ ask.dst = s.cfg.railStation ∧ ask.src = s.start.strap ∧ ask.fresh = false ∧
      ask.reference = s.roving.askSeq ∧ listed.Perm part ∧ listed.Pairwise (fun a b => a.creel ≤ b.creel) ∧
      ask.payload.length = 7 + 2 * part.length ∧ ask.payload.take 1 = [BitVec.ofNat 8 s.start.strap] ∧
      (∀ k, 1 ≤ k → k ≤ 48 → (ask.lists k ↔ ∃ r ∈ part, r.creel = k)) ∧
      ask.payload.drop 7 = listed.flatMap (fun r =>
        wordField (if r.state = .runOut then 0 else r.time.getD 65535))) ∧
    ∀ (s : State) (recs : List SupplyRec), 1 ≤ s.roving.askSeq → s.roving.askSeq ≤ 65535 →
      (s.handAsks recs).roving =
          { s.roving with askSeq := (s.roving.askSeq - 1 + (recs.length + 11) / 12) % 65535 + 1 } ∧
        (chunks 12 recs.length recs).flatten = recs ∧
        ∀ part ∈ chunks 12 recs.length recs, 1 ≤ part.length ∧ part.length ≤ 12

/-- R122, R123, R125, R127, R128, R134: the ends of answer waits, of kept etas and of deferrals, at the earliest moment
reached, with a batch delay above 0; and with any batch delay, 0 included, the ROVING-ASK notices they hand, in the order of
R123, the rail-silent count, and the start of the batch timer that ends them. That the two rows ROVING_ANSWER_WAIT and
DEFERRAL_END share the RUN-OUT sections is the model's reading (log 21), and that the asks precede the batch that a delay of 0
ends in the same event its choice (log 20). -/
def Obligations.RailSilenceAndExpiries : Prop :=
  (∀ (t m : Nat) (s : State), s.start.phase = .active → m ≤ max s.clock t / 1000 → s.cfg.batchDelay ≠ 0 →
    (s.roving.recs.map (fun r => r.creel)).Nodup →
    ∀ (waits : SupplyRec → Prop) (started : Option Nat) (again : SupplyRec → SupplyRec),
    waits = (fun r => (r.state = .asked ∨ r.state = .runOut) ∧ r.retryAt = some m) →
    started = some (s.roving.batchDue.getD (max s.clock t / 1000 + 1000 * s.cfg.batchDelay)) →
    again = (fun r =>
      if r.asks < 5 then { r with asks := r.asks + 1, retryAt := some (max s.clock t / 1000 + 30000) }
      else if r.state = .asked then { r with state := .due, asks := 0, retryAt := none }
      else { r with asks := 0, retryAt := some (max s.clock t / 1000 + 1000 * s.cfg.batchDelay) }) →
    ((∀ r ∈ s.roving.recs, (r.state = .asked ∨ r.state = .runOut) → ∀ x, r.retryAt = some x → m ≤ x) →
      (∃ r ∈ s.roving.recs, waits r) →
      ∃ s', exec (.rovingAnswerWait t) s = .next s' ∧
        (∀ (k : Nat) (r : SupplyRec), s.roving.recs[k]? = some r →
          (waits r → s'.roving.recs[k]? = some (again r)) ∧ (¬waits r → s'.roving.recs[k]? = some r)) ∧
        s'.roving.recs.length = s.roving.recs.length ∧
        ((∃ r ∈ s.roving.recs, waits r ∧ 5 ≤ r.asks) →
          s'.tally.opened.counts.railSilent = min 255 (s.tally.opened.counts.railSilent + 1)) ∧
        ((∀ r ∈ s.roving.recs, waits r → r.asks < 5) →
          s'.tally.opened.counts.railSilent = s.tally.opened.counts.railSilent) ∧
        ((∃ r ∈ s.roving.recs, waits r ∧ 5 ≤ r.asks ∧ r.state = .asked) → s'.roving.batchDue = started) ∧
        ((∀ r ∈ s.roving.recs, waits r → r.state = .asked → r.asks < 5) → s'.roving.batchDue = s.roving.batchDue) ∧
        s'.table = s.table ∧ s'.pieces = s.pieces ∧ s'.drive = s.drive ∧ s'.frame = s.frame) ∧
    ((∀ r ∈ s.roving.recs, ∀ e, r.eta = some e → m ≤ e.received + 60000 * (e.minutes + 10)) →
      ∀ ends : SupplyRec → Prop, ends = (fun r => ∃ e, r.eta = some e ∧ m = e.received + 60000 * (e.minutes + 10)) →
      (∃ r ∈ s.roving.recs, ends r) →
      ∃ s', exec (.etaExpiry t) s = .next s' ∧
        (∀ (k : Nat) (r : SupplyRec), s.roving.recs[k]? = some r →
          (ends r → r.state = .acked → s'.roving.recs[k]? = some { r with state := .due, eta := none }) ∧
          (ends r → r.state = .runOut → s'.roving.recs[k]? = some
            { r with asks := 1, eta := none, retryAt := some (max s.clock t / 1000 + 30000) }) ∧
          ((¬ends r ∨ (r.state ≠ .acked ∧ r.state ≠ .runOut)) → s'.roving.recs[k]? = some r)) ∧
        ((∃ r ∈ s.roving.recs, ends r ∧ r.state = .acked) → s'.roving.batchDue = started) ∧
        ((∀ r ∈ s.roving.recs, ends r → r.state ≠ .acked) → s'.roving.batchDue = s.roving.batchDue) ∧
        s'.table = s.table ∧ s'.pieces = s.pieces ∧ s'.drive = s.drive ∧ s'.frame = s.frame) ∧
    ∀ ends due : SupplyRec → Prop,
      ends = (fun r => r.state = .deferred ∨ (r.state = .runOut ∧ r.asks = 0)) →
      due = (fun r => ends r ∧ r.retryAt = some m) →
      (∀ r ∈ s.roving.recs, ends r → ∀ x, r.retryAt = some x → m ≤ x) → (∃ r ∈ s.roving.recs, due r) →
      ∃ s', exec (.deferralEnd t) s = .next s' ∧
        (∀ (k : Nat) (r : SupplyRec), s.roving.recs[k]? = some r →
          (due r → r.state = .deferred → s'.roving.recs[k]? = some { r with state := .due, retryAt := none }) ∧
          (due r → r.state = .runOut → s'.roving.recs[k]? = some (again r)) ∧
          (¬due r → ¬waits r → s'.roving.recs[k]? = some r) ∧
          (waits r → (∀ q ∈ s.roving.recs, due q → q.state ≠ .runOut) → s'.roving.recs[k]? = some r) ∧
          (waits r → (∃ q ∈ s.roving.recs, due q ∧ q.state = .runOut) → s'.roving.recs[k]? = some (again r))) ∧
        ((∃ r ∈ s.roving.recs, due r ∧ r.state = .deferred) → s'.roving.batchDue = started) ∧
        s'.table = s.table ∧ s'.pieces = s.pieces ∧ s'.drive = s.drive ∧ s'.frame = s.frame) ∧
    (∀ (s : State) (m : Nat) (waits : SupplyRec → Prop),
      waits = (fun r => (r.state = .asked ∨ r.state = .runOut) ∧ r.retryAt = some m) →
      ∃ (listed : List SupplyRec) (asked s1 : State),
        inAskOrder listed (s.roving.recs.filter (fun r =>
          (r.state == .asked || r.state == .runOut) && r.retryAt == some m && decide (r.asks < 5))) ∧
        asked = ({ s with roving := { s.roving with recs := s.roving.recs.map (fun r =>
          if (r.state = .asked ∨ r.state = .runOut) ∧ r.retryAt = some m then
            (if r.asks < 5 then { r with asks := r.asks + 1, retryAt := some (s.clock / 1000 + 30000) }
             else if r.state = .asked then { r with state := .due, asks := 0, retryAt := none }
             else { r with asks := 0, retryAt := some (s.clock / 1000 + 1000 * s.cfg.batchDelay) })
          else r) } } : State).handAsks listed ∧
        ((∃ r ∈ s.roving.recs, waits r ∧ 5 ≤ r.asks) → s1 = { asked with tally := { asked.tally with
          opened := { asked.tally.opened with counts := { asked.tally.opened.counts with
            railSilent := min 255 (asked.tally.opened.counts.railSilent + 1) } } } }) ∧
        ((∀ r ∈ s.roving.recs, waits r → r.asks < 5) → s1 = asked) ∧
        ((∃ r ∈ s.roving.recs, waits r ∧ 5 ≤ r.asks ∧ r.state = .asked) → s.answerWaitEnds m = s1.startBatch) ∧
        ((∀ r ∈ s.roving.recs, waits r → r.state = .asked → r.asks < 5) → s.answerWaitEnds m = s1)) ∧
    ∀ (t m : Nat) (s : State), s.start.phase = .active → m ≤ max s.clock t / 1000 →
      (s.roving.recs.map (fun r => r.creel)).Nodup →
      ((∀ r ∈ s.roving.recs, (r.state = .asked ∨ r.state = .runOut) → ∀ x, r.retryAt = some x → m ≤ x) →
        (∃ r ∈ s.roving.recs, (r.state = .asked ∨ r.state = .runOut) ∧ r.retryAt = some m) →
        exec (.rovingAnswerWait t) s = .next ((s.later t).answerWaitEnds m)) ∧
      ((∀ r ∈ s.roving.recs, ∀ e, r.eta = some e → m ≤ e.received + 60000 * (e.minutes + 10)) →
        ∀ ends : SupplyRec → Bool,
        ends = (fun r => r.eta.any (fun e => decide (m = e.received + 60000 * (e.minutes + 10)))) →
        (∃ r ∈ s.roving.recs, ends r = true) →
        ∃ (listed : List SupplyRec) (s1 : State),
          inAskOrder listed ((s.roving.recs.filter (fun r => ends r && r.state == .runOut)).map (fun r =>
            { r with asks := 1, eta := none, retryAt := some (max s.clock t / 1000 + 30000) })) ∧
          s1 = ({ s.later t with roving := { s.roving with recs := s.roving.recs.map (fun r =>
            if ends r = true ∧ r.state = .acked then { r with state := .due, eta := none }
            else if ends r = true ∧ r.state = .runOut then
              { r with asks := 1, eta := none, retryAt := some (max s.clock t / 1000 + 30000) }
            else r) } } : State).handAsks listed ∧
          ((∃ r ∈ s.roving.recs, ends r = true ∧ r.state = .acked) → exec (.etaExpiry t) s = .next s1.startBatch) ∧
          ((∀ r ∈ s.roving.recs, ends r = true → r.state ≠ .acked) → exec (.etaExpiry t) s = .next s1)) ∧
      ∀ ends due : SupplyRec → Prop,
        ends = (fun r => r.state = .deferred ∨ (r.state = .runOut ∧ r.asks = 0)) →
        due = (fun r => ends r ∧ r.retryAt = some m) →
        (∀ r ∈ s.roving.recs, ends r → ∀ x, r.retryAt = some x → m ≤ x) → (∃ r ∈ s.roving.recs, due r) →
        ∀ s1 s2 : State, s1 = { s.later t with roving := { s.roving with recs := s.roving.recs.map (fun r =>
            if r.state = .deferred ∧ r.retryAt = some m then { r with state := .due, retryAt := none } else r) } } →
          ((∃ r ∈ s.roving.recs, due r ∧ r.state = .runOut) → s2 = s1.answerWaitEnds m) →
          ((∀ r ∈ s.roving.recs, due r → r.state ≠ .runOut) → s2 = s1) →
          ((∃ r ∈ s.roving.recs, due r ∧ r.state = .deferred) → exec (.deferralEnd t) s = .next s2.startBatch) ∧
          ((∀ r ∈ s.roving.recs, due r → r.state ≠ .deferred) → exec (.deferralEnd t) s = .next s2)

/-- R126, R128, R129, R136, R33: the rail's answers and a laying, each handed to a roving unit that can take it
(R178, log 11). -/
def Obligations.RailAnswersAndLayings : Prop :=
  (∀ (t minutes : Nat) (sections : List Nat) (s : State) (now : Nat), s.start.phase = .active →
      s.canHand t .roving →
      now = max s.clock t / 1000 →
      exec (.rovingAck t s.cfg.railStation minutes sections) s = .next { s.handed t .roving with roving := { s.roving with
        recs := s.roving.recs.map (fun r =>
          if r.creel ∉ sections then r
          else if r.state = .asked ∨ r.state = .deferred then
            { r with state := .acked, eta := some ⟨minutes, now⟩, retryAt := none, asks := 0 }
          else if r.state = .acked then { r with eta := some ⟨minutes, now⟩ }
          else if r.state = .runOut then { r with eta := some ⟨minutes, now⟩, retryAt := none, asks := 0 }
          else r) } } ∧
      exec (.rovingDefer t s.cfg.railStation minutes sections) s = .next { s.handed t .roving with roving := { s.roving with
        recs := s.roving.recs.map (fun r =>
          if r.creel ∉ sections then r
          else if r.state = .asked ∨ r.state = .acked ∨ r.state = .deferred then
            { r with state := .deferred, retryAt := some (now + 60000 * max 1 minutes), eta := none, asks := 0 }
          else if r.state = .runOut then
            { r with retryAt := some (now + 60000 * max 1 minutes), eta := none, asks := 0 }
          else r) } }) ∧
    (∀ (t creel metres : Nat) (s : State), s.start.phase = .active → s.canHand t .roving →
      ((∀ r ∈ s.roving.recs, r.creel ≠ creel) →
        exec (.rovingLaid t s.cfg.railStation creel metres) s = .next (s.handed t .roving)) ∧
      ((∃ r ∈ s.roving.recs, r.creel = creel) →
        ∀ laid, laid = (if metres = 0 then 10 * s.cfg.laidMetres
          else if metres < 100 then 1000 else if 9000 < metres then 90000 else 10 * metres) →
        ∃ s', exec (.rovingLaid t s.cfg.railStation creel metres) s = .next s' ∧
          s'.roving = { s.roving with recs := s.roving.recs.map (fun r =>
            if r.creel = creel then
              { creel := creel, state := .none, laidMark := s.drive.d, laidLength := laid, remaining := laid,
                time := none, asks := 0, retryAt := none, eta := none, breaks := [] }
            else r) } ∧
          (∀ n r, s.spindle n = some r → s'.spindle n = some
            (if s.sectionOf n = creel ∧ r.state = .runOut then
              { r with state := .down, notBefore := some (max s.clock t / 1000000 + s.cfg.settleTime) }
            else r)) ∧
          s'.table.breakList = s.table.breakList ∧ s'.line = (s.handed t .roving).line ∧ s'.pieces = s.pieces ∧ s'.tally = s.tally ∧
          s'.drive = s.drive ∧ s'.frame = s.frame)) ∧
    ∀ (t src : Nat) (s : State) (c : Instr), s.start.phase = .active → s.canHand t .roving →
      src ≠ s.cfg.railStation →
      ((∃ eta sections, c = .rovingAck t src eta sections) ∨ (∃ minutes sections, c = .rovingDefer t src minutes sections) ∨
        ∃ creel metres, c = .rovingLaid t src creel metres) →
      exec c s = .next (s.handed t .roving)

/-! ## Shift tally -/

/-- R37, R38, R149 to R155, R160: a SHIFT-CHANGE closes the open shift with its live values, or is answered from the ring, or
with TALLY-NONE. It is handed to a tally unit that can take it (R178, log 11). -/
def Obligations.ShiftChangeClosesTheOpenShift : Prop :=
  ∀ (t src closing opening stamp : Nat) (s : State), s.start.phase = .active → s.canHand t .tally →
    ((closing = 0 ∨ opening = 0 ∨ opening = closing) →
      exec (.shiftChange t src closing opening stamp) s = .next (s.handed t .tally)) ∧
    (closing ≠ 0 → opening ≠ 0 → opening ≠ closing →
      (closing = s.tally.opened.number → s.ringBounded →
        ∀ closed : ClosedShift, closed = { shift := s.tally.opened, closedAt := max s.clock t / 60000000,
                                           valuesA := s.sideValues .A, valuesB := s.sideValues .B } →
        ∀ kept : List ClosedShift, kept = s.tally.ring.filter (fun r => r.shift.number != opening) ++ [closed] →
        exec (.shiftChange t src closing opening stamp) s = .next
          (({ s.handed t .tally with
              tally :=
                { opened :=
                    { number := opening, openedAt := max s.clock t / 60000000, stamp := some stamp,
                      dOpen := s.drive.d, counts := ⟨0, 0, 0, 0, 0, 0, 0, 0, 0, 0, 0, 0, 0, 0⟩,
                      sideA := ⟨0, 0, 0, 0, 0, 0, 0, 0⟩, sideB := ⟨0, 0, 0, 0, 0, 0, 0, 0⟩ }
                  ring := if kept.length = 5 then kept.tail else kept }
              table := { s.table with
                recs := s.table.recs.map (fun r =>
                  { r with breaks := 0, length := 0, upMark := if r.state = .up then s.drive.d else r.upMark,
                           heldMark := if r.heldMark = none then none else some s.drive.d })
                heldA := 0
                heldB := 0 } } : State).answerClosed src closed)) ∧
      (closing ≠ s.tally.opened.number →
        (∀ c, s.ringRecord closing = some c →
          exec (.shiftChange t src closing opening stamp) s = .next ((s.handed t .tally).answerClosed src c)) ∧
        (s.ringRecord closing = none → opening = s.tally.opened.number →
          exec (.shiftChange t src closing opening stamp) s = .next (s.handed t .tally)) ∧
        (s.ringRecord closing = none → opening ≠ s.tally.opened.number →
          exec (.shiftChange t src closing opening stamp) s = .next ((s.handed t .tally).hand
            { dst := src, src := s.start.strap, kind := some .tallyNone, fresh := false, reference := closing,
              payload := [] }))))

/-- R155 to R160, R202: what a TALLY-QUERY is answered with, by a tally unit that can take it (R178, log 11), the notices of
an answer, and the layouts of the three parts. That a side counts as one with sections by the moment its values were formed
is the model's reading (log 37). -/
def Obligations.QueriesAreAnsweredInThreeParts : Prop :=
  (∀ (t src number : Nat) (s : State), s.start.phase = .active → s.canHand t .tally →
      ((number = 0 ∨ number = s.tally.opened.number) →
        exec (.tallyQuery t src number) s = .next ((s.handed t .tally).answerOpen src)) ∧
      (number ≠ 0 → number ≠ s.tally.opened.number →
        (∀ c, s.ringRecord number = some c →
          exec (.tallyQuery t src number) s = .next ((s.handed t .tally).answerClosed src c)) ∧
        (s.ringRecord number = none →
          exec (.tallyQuery t src number) s = .next ((s.handed t .tally).hand
            { dst := src, src := s.start.strap, kind := some .tallyNone, fresh := false, reference := number,
              payload := [] })))) ∧
    (∀ (s : State) (src : Nat) (note : Nat → List Byte → Notice), s.line.routine.length ≤ 9 →
      note = (fun reference payload => { dst := src, src := s.start.strap, kind := some .tally, fresh := false,
                                         reference := reference, payload := payload }) →
      (s.answerOpen src).line.routine = s.line.routine ++
          [note s.tally.opened.number
             (partOne s.tally.opened false (s.clock / 60000000 - s.tally.opened.openedAt)),
           note s.tally.opened.number (sidePart 2 s.tally.opened.sideA (s.sideValues .A)),
           note s.tally.opened.number (sidePart 3 s.tally.opened.sideB (s.sideValues .B))] ∧
        ∀ c : ClosedShift, (s.answerClosed src c).line.routine = s.line.routine ++
          [note c.shift.number (partOne c.shift true (c.closedAt - c.shift.openedAt)),
           note c.shift.number (sidePart 2 c.shift.sideA c.valuesA),
           note c.shift.number (sidePart 3 c.shift.sideB c.valuesB)]) ∧
    (∀ (s : State) (src : Nat), (s.answerOpen src).table = s.table ∧ (s.answerOpen src).drive = s.drive ∧
      (s.answerOpen src).tally.exceptSendFailures = s.tally.exceptSendFailures) ∧
    (∀ (part : Nat) (c : SideCounts) (v : SideValues) (p : List Byte), part = 2 ∨ part = 3 → p = sidePart part c v →
      (v.configured = false → p = BitVec.ofNat 8 (64 * part) :: List.replicate 19 0#8) ∧
      (v.configured = true → c.inRange → v.efficiency ≤ 1000 → v.lockedNow ≤ 1023 → v.delivered < 4294967296 →
        v.mass < 16777216 → (∀ g ∈ v.rogues, g.spindle < 65536 ∧ g.breaks < 256) →
        p.length = 20 + 3 * v.rogues.length ∧
        65536 * byteAt p 0 + wordAt p 1 = 4194304 * part + 4096 * v.efficiency + 4 * v.lockedNow ∧
        longAt p 3 = v.delivered ∧ 65536 * byteAt p 7 + wordAt p 8 = v.mass ∧ wordAt p 10 = c.endsDown ∧
        byteAt p 12 = c.startUpBreaks ∧ wordAt p 13 = c.pieced ∧ byteAt p 15 = c.piecedByHand ∧
        byteAt p 16 = c.failed ∧ byteAt p 17 = c.lapsed ∧ byteAt p 18 = c.untaken ∧ byteAt p 19 = c.locked ∧
        ∀ (k : Nat) (g : Rogue), v.rogues[k]? = some g →
          wordAt p (20 + 3 * k) = g.spindle ∧ byteAt p (22 + 3 * k) = g.breaks)) ∧
    ∀ (o : OpenShift) (closed : Bool) (minutes : Nat) (part : List Byte), part = partOne o closed minutes →
      o.inRange → part.length = 29 ∧ byteAt part 0 = (if closed = true then 65 else 64) ∧
        (∀ stamp, o.stamp = some stamp → stamp < 4294967296 → longAt part 1 = stamp) ∧
        (o.stamp = none → longAt part 1 = 0) ∧
        wordAt part 5 = min 65535 minutes ∧ byteAt part 7 = o.counts.doffs ∧ wordAt part 8 = o.counts.dofferWait ∧
        wordAt part 10 = o.counts.doffStall ∧ wordAt part 12 = o.counts.stopped ∧
        wordAt part 14 = o.counts.runOutMinutes ∧ wordAt part 16 = o.counts.blindMinutes ∧
        byteAt part 18 = o.counts.dofferSilent ∧ byteAt part 19 = o.counts.railSilent ∧
        wordAt part 20 = o.counts.collisions ∧ wordAt part 22 = o.counts.receiveErrors ∧
        wordAt part 24 = o.counts.lateScans ∧ byteAt part 26 = o.counts.sendFailures ∧
        byteAt part 27 = o.counts.inboundOverruns ∧ byteAt part 28 = o.counts.routineDiscards

/-- R38, R144 to R148, R159: the values of a side: the mass from its delivered value, the delivered, the efficiency from the
available delivery, the live held-delivery sum, the locked spindles, the rogue list, and whether the side has sections. -/
def Obligations.SideValuesAreFormedExactly : Prop :=
  (∀ (s : State) (side : Side) (v : SideValues), v = s.sideValues side →
      v.mass = min 16777215 (v.delivered * s.cfg.tex / 1000000) ∧
      v.delivered = min 4294967295 ((s.shares side).map (fun h => h.length)).sum ∧
      (∀ available, available = min 4294967295
          (s.sideSpindles side * (s.drive.d - s.tally.opened.dOpen).toNat - s.liveHeld side) →
        v.efficiency = (if available = 0 then 0 else min 1000 (1000 * v.delivered / available))) ∧
      v.lockedNow = (s.shares side).countP (fun h => h.locked) ∧
      (v.configured = true ↔ 0 < (match side with | .A => s.cfg.sectionsA | .B => s.cfg.sectionsB)) ∧
      v.rogues = roguesOf s.cfg.rogueThreshold (s.shares side)) ∧
    (∀ (s : State) (side : Side), s.heldSum side ≤ 4294967295 → s.liveHeld side =
      min 4294967295 (s.heldSum side + ((s.spindlesOf side).map (fun n =>
        match (s.spindle n).bind (fun r => r.heldMark) with
        | some m => (s.drive.d - m).toNat
        | none => 0)).sum)) ∧
    (∀ (s : State) (side : Side) (h : SpindleShare), h ∈ s.shares side ↔
      ∃ n r, n ∈ s.spindlesOf side ∧ s.spindle n = some r ∧ h.spindle = n ∧ h.breaks = r.breaks ∧
        h.length = (if r.state = .up then min 16777215 (r.length + (s.drive.d - r.upMark).toNat) else r.length) ∧
        (h.locked = true ↔ r.state = .locked ∨ (r.state = .held ∧ r.heldFrom = some .locked))) ∧
    ∀ (threshold : Nat) (shares : List SpindleShare) (rogues : List Rogue), rogues = roguesOf threshold shares →
      rogues.length = min 4 (shares.countP (fun h => decide (threshold ≤ h.breaks))) ∧
      rogues.Pairwise (fun a b => b.breaks < a.breaks ∨ (a.breaks = b.breaks ∧ a.spindle ≤ b.spindle)) ∧
      (∀ g ∈ rogues, threshold ≤ g.breaks ∧ ∃ h ∈ shares, h.spindle = g.spindle ∧ h.breaks = g.breaks) ∧
      ∀ h ∈ shares, threshold ≤ h.breaks → (⟨h.spindle, h.breaks⟩ : Rogue) ∉ rogues →
        ∀ g ∈ rogues, h.breaks < g.breaks ∨ (g.breaks = h.breaks ∧ g.spindle ≤ h.spindle)

/-! ## The line unit -/

/-- R167, R168: where a notice that is handed goes. -/
def Obligations.HandedNoticeJoinsItsQueue : Prop :=
  ∀ (s : State) (n : Notice) (q q' : List Notice), q = (if n.urgent = true then s.line.urgent else s.line.routine) →
    ((n.kind = some .forecast ∨ n.kind = some .hello) → (∃ m ∈ q, m.kind = n.kind) →
      q' = q.map (fun m => if m.kind = n.kind then n else m) →
      s.hand n = { s with line := if n.urgent = true then { s.line with urgent := q' }
                                  else { s.line with routine := q' } }) ∧
    (¬((n.kind = some .forecast ∨ n.kind = some .hello) ∧ ∃ m ∈ q, m.kind = n.kind) →
      (q.length < 12 → q' = q ++ [n] →
        s.hand n = { s with line := if n.urgent = true then { s.line with urgent := q' }
                                    else { s.line with routine := q' } }) ∧
      (12 ≤ q.length → s.hand n =
        { s with tally := { s.tally with opened := { s.tally.opened with counts := { s.tally.opened.counts with
            sendFailures := min 255 (s.tally.opened.counts.sendFailures + 1) } } } }))

/-- R169, R170: the first attempt takes the oldest eligible urgent notice, else the oldest eligible routine one. -/
def Obligations.FirstAttemptTakesTheOldestEligible : Prop :=
  (∀ (s : State) (n : Notice), s.eligible n = true ↔
      n.dst = 255 ∨ ∀ p, s.peer n.dst = some p → ∀ m, p.holdUntil = some m → m ≤ s.clock / 1000) ∧
    ∀ (t : Nat) (s : State), s.start.phase = .active → s.line.flight = none → s.line.receiving = false →
      s.line.lastTransition + (if s.line.pacing = 0 then 24 else 120) * s.bitTime ≤ max s.clock t →
      (∀ n ahead behind, s.line.urgent = ahead ++ n :: behind → (∀ m ∈ ahead, (s.later t).eligible m = false) →
        (s.later t).eligible n = true → n.urgent = true → exec (.firstAttempt t) s = .next
          { s.later t with line := { s.line with
              urgent := ahead ++ behind
              flight := some { notice := n, attempts := 1, phase := .sending (max s.clock t) } } }) ∧
      ((∀ m ∈ s.line.urgent, (s.later t).eligible m = false) →
        (∀ n ahead behind, s.line.routine = ahead ++ n :: behind → (∀ m ∈ ahead, (s.later t).eligible m = false) →
          (s.later t).eligible n = true → n.urgent = false → exec (.firstAttempt t) s = .next
            { s.later t with line := { s.line with
                routine := ahead ++ behind
                flight := some { notice := n, attempts := 1, phase := .sending (max s.clock t) } } }) ∧
        ((∀ m ∈ s.line.routine, (s.later t).eligible m = false) →
          exec (.firstAttempt t) s = .next (s.later t)))

/-- R171 to R173: a collision from the first preamble bit to the last check bit (log 2), the end of its jam, the retry,
and the end of an attempt without one. -/
def Obligations.AttemptsEndInSendingOrBackOff : Prop :=
  (∀ (t since : Nat) (s : State) (f : SendFlight), s.start.phase = .active → s.line.flight = some f →
      f.phase = .sending since →
      (max s.clock t ≤ since + (16 + 8 * (9 + f.notice.payload.length)) * s.bitTime → exec (.collision t) s = .next
        { s.later t with
          line := { s.line with
            flight := some { f with phase := .jamming (max s.clock t + 32 * s.bitTime) }
            pacing := 31
            lastTransition := max s.clock t }
          tally := { s.tally with opened := { s.tally.opened with counts := { s.tally.opened.counts with
            collisions := min 65535 (s.tally.opened.counts.collisions + 1) } } } }) ∧
      (since + (16 + 8 * (9 + f.notice.payload.length)) * s.bitTime < max s.clock t →
        exec (.collision t) s = .next (s.later t)) ∧
      ∀ ended, ended = since + (16 + 8 * (9 + f.notice.payload.length)) * s.bitTime → ended ≤ max s.clock t →
        exec (.noticeSent t) s = .next
          { s.later t with line := { s.line with
              flight := none, pacing := s.line.pacing - 1, lastTransition := max s.line.lastTransition ended } }) ∧
    (∀ (t ends : Nat) (s : State) (f : SendFlight), s.start.phase = .active → s.line.flight = some f →
      f.phase = .jamming ends → ends ≤ max s.clock t →
      (f.attempts < 16 → ∀ w, w = (lfsrDraw s.line.lfsr).toNat % 2 ^ min f.attempts 8 → exec (.jamEnd t) s = .next
        { s.later t with line := { s.line with
            lfsr := lfsrDraw s.line.lfsr
            flight := some { f with phase := .backingOff (ends + w * (64 * s.bitTime)) }
            lastTransition := max s.line.lastTransition ends } }) ∧
      (16 ≤ f.attempts → exec (.jamEnd t) s = .next
        { s.later t with
          line := { s.line with flight := none, lastTransition := max s.line.lastTransition ends }
          tally := { s.tally with opened := { s.tally.opened with counts := { s.tally.opened.counts with
            sendFailures := min 255 (s.tally.opened.counts.sendFailures + 1) } } } })) ∧
    (∀ (t ends : Nat) (s : State) (f : SendFlight), s.start.phase = .active → s.line.flight = some f →
      f.phase = .backingOff ends → ends ≤ max s.clock t → s.line.receiving = false →
      s.line.lastTransition + 24 * s.bitTime ≤ max s.clock t →
      exec (.retryAttempt t) s = .next
        { s.later t with line := { s.line with
            flight := some { f with attempts := f.attempts + 1, phase := .sending (max s.clock t) } } }) ∧
    (∀ r : BitVec 16, (lfsrStep r).getLsbD 0 =
          (((r.getLsbD 15).xor (r.getLsbD 13)).xor ((r.getLsbD 12).xor (r.getLsbD 10))) ∧
        ∀ k, k < 15 → (lfsrStep r).getLsbD (k + 1) = r.getLsbD k) ∧
    ∀ r : BitVec 16, lfsrDraw r =
      lfsrStep (lfsrStep (lfsrStep (lfsrStep (lfsrStep (lfsrStep (lfsrStep (lfsrStep r)))))))

/-- R165, R166, R174, R175, R186: a frame ends when the line becomes idle, 12 bit times after its last transition, and
not before; the notice a frame carries, its kind code, and the check over its bytes (R200, R201); and the classes of a
received frame. That the last transition then stands 12 bit times before the end, and that
nothing is classed when no start mark was taken, is read from the spec by the model (log 16). -/
def Obligations.ReceivedFramesAreClassed : Prop :=
  (∀ bytes : List Byte, goodFrame bytes = true ↔
      9 ≤ bytes.length ∧ bytes.length ≤ 41 ∧ byteAt bytes 6 ≤ 32 ∧ bytes.length = 9 + byteAt bytes 6 ∧
        wordAt bytes (bytes.length - 2) = (checkOf (bytes.take (bytes.length - 2))).toNat) ∧
    (checkOf [] = 0xFFFF#16 ∧ ∀ (bytes : List Byte) (b : Byte), checkOf (bytes ++ [b]) =
      (List.range 8).foldl (fun (reg : BitVec 16) (k : Nat) =>
        if reg.getLsbD 15 != b.getLsbD (7 - k) then (reg <<< 1) ^^^ 0x1021#16 else reg <<< 1) (checkOf bytes)) ∧
    (∀ (bytes : List Byte) (k : Nat), byteAt bytes k = (bytes.getD k 0#8).toNat ∧
      wordAt bytes k = 256 * byteAt bytes k + byteAt bytes (k + 1) ∧
      longAt bytes k = 65536 * wordAt bytes k + wordAt bytes (k + 2)) ∧
    (∀ (bytes : List Byte) (n : Notice), n = noticeOf bytes → n.dst = byteAt bytes 0 ∧ n.src = byteAt bytes 1 ∧
      (∀ kind, n.kind = some kind ↔ kind.code = byteAt bytes 2) ∧
      (n.fresh = true ↔ byteAt bytes 2 = 1 ∧ byteAt bytes 3 % 2 = 1) ∧ n.reference = wordAt bytes 4 ∧
      n.payload = (bytes.drop 7).take (byteAt bytes 6)) ∧
    ([Kind.hello, .patrol, .forecast, .hold].map Kind.code = [1, 2, 3, 4] ∧
      [Kind.call, .cancel, .take, .assign, .done, .close].map Kind.code = [16, 17, 18, 19, 20, 21] ∧
      [Kind.doffClaim, .doffQueued, .doffGrant, .doffStart, .doffEnd, .doffAbort, .doffRefuse].map Kind.code =
        [32, 33, 34, 35, 36, 37, 38] ∧
      [Kind.rovingAsk, .rovingAck, .rovingDefer, .rovingLaid].map Kind.code = [48, 49, 50, 51] ∧
      [Kind.shiftChange, .unlock, .tallyQuery, .tally, .tallyNone].map Kind.code = [64, 65, 66, 67, 68]) ∧
    (∀ (t : Nat) (bytes : List Byte) (s : State), s.underWay →
      (s.transmits = true ∨ max s.clock t < s.line.lastTransition + 12 * s.bitTime) →
      exec (.receiveFrameEnd t bytes) s = .next (s.later t)) ∧
    ∀ (t : Nat) (bytes : List Byte) (s s1 : State), s.underWay → s.transmits = false →
      s.line.lastTransition + 12 * s.bitTime ≤ max s.clock t →
      s1 = { s.later t with line := { s.line with
        receiving := false, lastTransition := max s.clock t - 12 * s.bitTime } } →
      (s.line.receiving = false → exec (.receiveFrameEnd t bytes) s = .next s1) ∧
      (s.line.receiving = true →
        ((goodFrame bytes = false ∨ byteAt bytes 1 = 0 ∨ 239 < byteAt bytes 1) →
          exec (.receiveFrameEnd t bytes) s = .next
            { s1 with tally := { s.tally with opened := { s.tally.opened with counts := { s.tally.opened.counts with
                receiveErrors := min 65535 (s.tally.opened.counts.receiveErrors + 1) } } } }) ∧
        (goodFrame bytes = true → byteAt bytes 1 ≠ 0 → byteAt bytes 1 ≤ 239 → byteAt bytes 1 = s.start.strap →
          exec (.receiveFrameEnd t bytes) s = .next
            { s1 with line := { s1.line with clash := min 255 (s.line.clash + 1) } }) ∧
        (goodFrame bytes = true → byteAt bytes 1 ≠ 0 → byteAt bytes 1 ≤ 239 → byteAt bytes 1 ≠ s.start.strap →
          ∃ s2 s', exec (.receiveFrameEnd t bytes) s = .next s' ∧ s2 = (s1.hear).learn (noticeOf bytes) ∧
            s2.line.isolated = false ∧ s2.line.isolationStart = max s.clock t ∧
            s'.line.isolated = false ∧ s'.line.isolationStart = max s.clock t ∧
            (byteAt bytes 0 ≠ s.start.strap → byteAt bytes 0 ≠ 255 → s' = s2) ∧
            (byteAt bytes 0 = s.start.strap ∨ byteAt bytes 0 = 255 → s' = s2.accept (noticeOf bytes)) ∧
            ((s1.peer (byteAt bytes 1)).isSome = true ∨ s.line.peers.length < 32 →
              ∃ p, s2.peer (byteAt bytes 1) = some p ∧ p.lastHeard = max s.clock t / 1000)))

/-- R176 to R180, R188, R200: the block that owns a kind, the class and the least payload of each kind, what is dropped with
nothing but its learning, and the taking of a notice by its block, which is what the row of its kind does. An accepted notice
of a queued kind joins the inbound queue or is dropped for want of a slot, whatever its
block and the queue, and then head notices are handed: it waits behind a busy block, its own included, or is handed at once; a
block that has finished frees the head, and head notices are handed one after another as long as their blocks are free;
HOLD(255) is handed when the free slots fall to the threshold, HOLD(0) when they rise above it. A block is
surely free again below 1 ms, the tally unit after 30 ms (log 28); a row that is the taking of a notice waits for its block
and for the notices ahead of it (log 11). The own HOLD is tested between the freeing of the slot and the taking (log 10). -/
def Obligations.InboundNoticesAreHandedInOrder : Prop :=
  (∀ n : Notice,
      (n.owner = some .dispatcher ↔ n.kind = some .take ∨ n.kind = some .done) ∧
      (n.owner = some .frameDoff ↔ n.kind = some .doffQueued ∨ n.kind = some .doffGrant ∨ n.kind = some .doffStart ∨
        n.kind = some .doffEnd ∨ n.kind = some .doffAbort) ∧
      (n.owner = some .roving ↔
        n.kind = some .rovingAck ∨ n.kind = some .rovingDefer ∨ n.kind = some .rovingLaid) ∧
      (n.owner = some .tally ↔ n.kind = some .shiftChange ∨ n.kind = some .tallyQuery) ∧
      (n.owner = some .spindleTable ↔ n.kind = some .unlock) ∧
      (n.longEnough = true ↔ ∃ p ∈ [(Kind.hello, 3), (.patrol, 0), (.forecast, 7), (.hold, 1), (.take, 2), (.done, 4),
          (.doffQueued, 1), (.doffGrant, 1), (.doffStart, 0), (.doffEnd, 0), (.doffAbort, 0), (.rovingAck, 1),
          (.rovingDefer, 1), (.rovingLaid, 3), (.shiftChange, 6), (.unlock, 2), (.tallyQuery, 0)],
        n.kind = some p.1 ∧ p.2 ≤ n.payload.length) ∧
      (n.urgent = false ↔ n.kind = none ∨ ∃ k ∈ [Kind.patrol, .forecast, .call, .cancel, .tallyQuery, .tally, .tallyNone],
        n.kind = some k)) ∧
    (∀ (s : State) (n : Notice),
      ((n.kind = none ∨ ∃ k ∈ [Kind.patrol, .forecast, .call, .cancel, .assign, .close, .doffClaim, .doffRefuse, .rovingAsk,
          .tally, .tallyNone], n.kind = some k) → s.accept n = s) ∧
      (n.longEnough = false → s.accept n = s) ∧ (n.kind = some .hello → n.fresh = false → s.accept n = s) ∧
      (s.start.phase ≠ .active → (n.kind = some .hello ∨ ∃ block, n.owner = some block) → s.accept n = s) ∧
      (n.kind = some .hold → n.longEnough = true → s.accept n = { s with line := { s.line with
        peers := s.line.peers.map (fun p => if p.station = n.src then
          { p with holdUntil := if byteAt n.payload 0 = 0 then none
              else some (s.clock / 1000 + 4 * byteAt n.payload 0) }
          else p) } })) ∧
    (∀ (t : Nat) (s : State) (n : Notice) (b : List Byte), s.start.phase = .active → b = n.payload →
      (s.canHand t .dispatcher → ∀ taken, taken = Host.Outcome.next ((s.handed t .dispatcher).takeNotice n) →
        (n.kind = some .take → exec (.take t n.src n.reference (wordAt b 0)) s = taken) ∧
        (n.kind = some .done →
          exec (.done t n.src n.reference (wordAt b 0) (byteAt b 2) (byteAt b 3)) s = taken)) ∧
      (s.canHand t .frameDoff → ∀ taken, taken = Host.Outcome.next ((s.handed t .frameDoff).takeNotice n) →
        (n.kind = some .doffQueued → exec (.doffQueued t n.src (byteAt b 0)) s = taken) ∧
        (n.kind = some .doffGrant → exec (.doffGrant t n.src (byteAt b 0)) s = taken) ∧
        (n.kind = some .doffStart → exec (.doffStart t n.src) s = taken) ∧
        (n.kind = some .doffEnd → exec (.doffEnd t n.src) s = taken) ∧
        (n.kind = some .doffAbort → exec (.doffAbort t n.src) s = taken)) ∧
      (s.canHand t .roving → ∀ taken, taken = Host.Outcome.next ((s.handed t .roving).takeNotice n) →
        (n.kind = some .rovingAck →
          exec (.rovingAck t n.src (byteAt b 0) ((b.drop 1).map (fun x => x.toNat))) s = taken) ∧
        (n.kind = some .rovingDefer →
          exec (.rovingDefer t n.src (byteAt b 0) ((b.drop 1).map (fun x => x.toNat))) s = taken) ∧
        (n.kind = some .rovingLaid → exec (.rovingLaid t n.src (byteAt b 0) (wordAt b 1)) s = taken)) ∧
      (s.canHand t .tally → ∀ taken, taken = Host.Outcome.next ((s.handed t .tally).takeNotice n) →
        (n.kind = some .shiftChange →
          exec (.shiftChange t n.src n.reference (wordAt b 0) (longAt b 2)) s = taken) ∧
        (n.kind = some .tallyQuery → exec (.tallyQuery t n.src n.reference) s = taken)) ∧
      (s.canHand t .spindleTable → n.kind = some .unlock → exec (.unlock t (wordAt b 0)) s =
        Host.Outcome.next ((s.handed t .spindleTable).takeNotice n))) ∧
    (∀ (s : State) (n : Notice) (block : Block), s.start.phase = .active → n.owner = some block →
      n.longEnough = true →
      (s.line.inbound.length = 16 → s.accept n = ({ s with tally := { s.tally with opened := { s.tally.opened with
        counts := { s.tally.opened.counts with
          inboundOverruns := min 255 (s.tally.opened.counts.inboundOverruns + 1) } } } } : State).handHeads 17) ∧
      (n.urgent = false → (s.line.inbound.length = 14 ∨ s.line.inbound.length = 15) →
        s.accept n = ({ s with tally := { s.tally with opened := { s.tally.opened with
          counts := { s.tally.opened.counts with
            routineDiscards := min 255 (s.tally.opened.counts.routineDiscards + 1) } } } } : State).handHeads 17) ∧
      ((s.line.inbound.length < 14 ∨ (n.urgent = true ∧ s.line.inbound.length < 16)) →
        ∀ (placed : State) (hold : Byte → Notice),
        placed = { s with line := { s.line with inbound := s.line.inbound ++ [n] } } →
        hold = (fun time => { dst := 255, src := s.start.strap, kind := some .hold, fresh := false, reference := 0,
                              payload := [time] }) →
        (s.line.ownHold = none → 15 - s.line.inbound.length ≤ s.cfg.holdThreshold → s.accept n =
          (({ placed with line := { placed.line with ownHold := some (s.clock / 1000 + 1020) } } : State).hand
            (hold 255#8)).handHeads 17) ∧
        (s.line.ownHold = none → s.cfg.holdThreshold < 15 - s.line.inbound.length →
          s.accept n = placed.handHeads 17) ∧
        (s.line.ownHold ≠ none → 15 - s.line.inbound.length ≤ s.cfg.holdThreshold →
          s.accept n = placed.handHeads 17) ∧
        (s.line.ownHold ≠ none → s.cfg.holdThreshold < 15 - s.line.inbound.length → s.accept n =
          (({ placed with line := { placed.line with ownHold := none } } : State).hand (hold 0#8)).handHeads 17))) ∧
    (∀ (s : State) (n : Notice) (block : Block), s.start.phase = .active → n.owner = some block →
      n.longEnough = true → s.line.inbound = [] →
      (∀ since, s.line.busy.of block = some since → ¬mayBeBusy block since s.clock) → s.cfg.holdThreshold < 15 →
      ∀ tested : State, (s.line.ownHold = none → tested = s) →
      (s.line.ownHold ≠ none → tested = ({ s with line := { s.line with ownHold := none } } : State).hand
        { dst := 255, src := s.start.strap, kind := some .hold, fresh := false, reference := 0,
          payload := [0#8] }) →
      s.accept n = ({ tested with line := { tested.line with
        busy := s.line.busy.set block (some s.clock) } } : State).takeNotice n) ∧
    (∀ (t since : Nat) (block : Block) (s s1 : State), s.start.phase = .active →
      s.line.busy.of block = some since → since < max s.clock t →
      s1 = { s.later t with line := { s.line with busy := s.line.busy.set block none } } →
      exec (.blockBusyEnds t block) s = .next (s1.handHeads 17) ∧
      (s.line.inbound = [] → exec (.blockBusyEnds t block) s = .next s1) ∧
      (∀ head rest other u, s.line.inbound = head :: rest → head.owner = some other → other ≠ block →
        s.line.busy.of other = some u → mayBeBusy other u (max s.clock t) →
        exec (.blockBusyEnds t block) s = .next s1) ∧
      (∀ head, s.line.inbound = [head] → head.owner = some block → s.line.ownHold = none → s.cfg.holdThreshold < 16 →
        exec (.blockBusyEnds t block) s = .next
          (({ s1 with line := { s1.line with
                inbound := []
                busy := s1.line.busy.set block (some (max s.clock t)) } } : State).takeNotice head))) ∧
    (∀ (t : Nat) (block : Block) (s : State), s.start.phase = .active →
      (s.line.busy.of block = none ∨ ∃ since, s.line.busy.of block = some since ∧ max s.clock t ≤ since) →
      exec (.blockBusyEnds t block) s = .next (s.later t)) ∧
    (∀ s : State, s.handHeads 0 = s ∧ ∀ (fuel : Nat),
      (s.line.inbound = [] → s.handHeads (fuel + 1) = s) ∧
      ∀ (n : Notice) (rest : List Notice) (block : Block), s.line.inbound = n :: rest → n.owner = some block →
        (∀ since, s.line.busy.of block = some since → mayBeBusy block since s.clock →
          s.handHeads (fuel + 1) = s) ∧
        ((∀ since, s.line.busy.of block = some since → ¬mayBeBusy block since s.clock) →
          s.handHeads (fuel + 1) = (s.handHead n rest block).handHeads fuel)) ∧
    (∀ (s placed : State) (n : Notice) (rest : List Notice) (block : Block),
      placed = { s with line := { s.line with
        inbound := rest, busy := s.line.busy.set block (some s.clock) } } →
      ∀ hold : Nat → Notice, hold = (fun time =>
        { dst := 255, src := s.start.strap, kind := some .hold, fresh := false, reference := 0,
          payload := [BitVec.ofNat 8 time] }) →
      (s.line.ownHold = none → 16 - rest.length ≤ s.cfg.holdThreshold → s.handHead n rest block =
        (({ placed with line := { placed.line with ownHold := some (s.clock / 1000 + 1020) } } : State).hand
          (hold 255)).takeNotice n) ∧
      (s.line.ownHold = none → s.cfg.holdThreshold < 16 - rest.length →
        s.handHead n rest block = placed.takeNotice n) ∧
      (s.line.ownHold ≠ none → 16 - rest.length ≤ s.cfg.holdThreshold →
        s.handHead n rest block = placed.takeNotice n) ∧
      (s.line.ownHold ≠ none → s.cfg.holdThreshold < 16 - rest.length → s.handHead n rest block =
        (({ placed with line := { placed.line with ownHold := none } } : State).hand (hold 0)).takeNotice n)) ∧
    (∀ s : State, s.line.inbound.length ≤ 16 →
      (∃ handed, s.line.inbound = handed ++ (s.handHeads 17).line.inbound) ∧
      ∀ (n : Notice) (rest : List Notice) (block : Block), (s.handHeads 17).line.inbound = n :: rest →
        n.owner = some block → ∃ since, (s.handHeads 17).line.busy.of block = some since ∧
          mayBeBusy block since (s.handHeads 17).clock) ∧
    ∀ (c : Instr) (t : Nat) (block : Block) (s : State), takenBy c = some (t, block) → s.start.phase = .active →
      ¬s.canHand t block → exec c s = .next (s.later t)

/-- R175, R176, R181 to R184, R200: what the line unit learns of a notice of every kind, one below its least payload included;
what it learns of the notices it acts on itself, and the entry a new station replaces. That a HELLO of two bytes sets the kind
and no group is the model's reading (log 29). -/
def Obligations.PeersAreLearnedFromTheirNotices : Prop :=
  (∀ s : State, s.hear = { s with line := { s.line with isolated := false, isolationStart := s.clock } }) ∧
    (∀ (s learned : State) (n : Notice) (old heard : Peer), learned = s.learn n →
      ((s.peer n.src = some old) ∨ (s.peer n.src = none ∧ s.line.peers.length < 32 ∧
        old = { station := n.src, kind := .unknown, group := none, patrol := [], lastHeard := s.clock / 1000,
                holdUntil := none, forecast := none })) →
      heard = { old with lastHeard := s.clock / 1000 } →
      learned = { s with line := { s.line with peers := learned.line.peers } } ∧
      (∀ x, x ≠ n.src → learned.peer x = s.peer x) ∧
      ((n.kind = none ∨ n.kind = some .hold ∨ (n.kind = some .hello ∧ n.payload.length < 2)) →
        learned.peer n.src = some heard) ∧
      ∀ kind : PeerKind,
        (((n.kind = some .take ∨ n.kind = some .done) ∧ kind = .piecer) ∨
          ((∃ k ∈ [Kind.doffQueued, .doffGrant, .doffStart, .doffEnd, .doffAbort], n.kind = some k) ∧ kind = .doffer) ∨
          ((∃ k ∈ [Kind.rovingAck, .rovingDefer, .rovingLaid], n.kind = some k) ∧ kind = .rail) ∨
          ((∃ k ∈ [Kind.shiftChange, .unlock, .tallyQuery], n.kind = some k) ∧ kind = .office) ∨
          ((∃ k ∈ [Kind.call, .cancel, .assign, .close, .doffClaim, .doffRefuse, .rovingAsk, .tally, .tallyNone],
            n.kind = some k) ∧ kind = .frame) ∨
          (n.kind = some .forecast ∧ n.payload.length < 7 ∧ kind = .frame) ∨
          (n.kind = some .hello ∧ n.payload.length = 2 ∧ ∀ code, code = byteAt n.payload 1 →
            kind = (if code = 1 then .frame else if code = 2 then .piecer else if code = 3 then .doffer
              else if code = 4 then .rail else if code = 5 then .office else .unknown))) →
        (old.kind = kind → learned.peer n.src = some heard) ∧
        (old.kind ≠ kind → learned.peer n.src = some
          { heard with kind := kind, group := if kind = .frame then old.group else none,
                       patrol := if kind = .piecer then old.patrol else [],
                       forecast := if kind = .frame then old.forecast else none })) ∧
    (∀ (t src : Nat) (s : State) (old : Peer) (now : Nat), s.underWay → 1 ≤ src → src ≤ 239 → src ≠ s.start.strap →
      now = max s.clock t / 1000 →
      ((s.peer src = some old) ∨ (s.peer src = none ∧ s.line.peers.length < 32 ∧
        old = { station := src, kind := .unknown, group := none, patrol := [], lastHeard := now, holdUntil := none,
                forecast := none })) →
      (∀ time, time < 256 → ∃ s', exec (.hold t src time) s = .next s' ∧ s'.line.isolated = false ∧
        s'.line.isolationStart = max s.clock t ∧ s'.peer src = some
          { old with lastHeard := now, holdUntil := if time = 0 then none else some (now + 4 * time) }) ∧
      (∀ kind group, kind < 256 → group < 256 → ∃ s' p, exec (.hello t src kind group false) s = .next s' ∧
        s'.peer src = some p ∧ p.station = src ∧ p.lastHeard = now ∧ p.holdUntil = old.holdUntil ∧
        p.kind = (if kind = 1 then .frame else if kind = 2 then .piecer else if kind = 3 then .doffer
          else if kind = 4 then .rail else if kind = 5 then .office else .unknown) ∧
        (p.kind = .frame → p.group = some group) ∧
        (p.kind ≠ old.kind → p.kind ≠ .frame → p.group = none ∧ p.forecast = none) ∧
        (p.kind ≠ old.kind → p.kind ≠ .piecer → p.patrol = []) ∧
        (p.kind = old.kind → p.forecast = old.forecast ∧ p.patrol = old.patrol)) ∧
      (∀ stations : List Nat, (∀ x ∈ stations, x < 256) → ∃ s' p, exec (.patrol t src stations) s = .next s' ∧
        s'.peer src = some p ∧ p.kind = .piecer ∧ p.lastHeard = now ∧ p.holdUntil = old.holdUntil ∧
        p.patrol.Nodup ∧ p.patrol.Sublist (stations.take 16) ∧
        ∀ x, x ∈ p.patrol ↔ x ∈ stations.take 16 ∧ 1 ≤ x ∧ x ≤ 239) ∧
      (∀ group mode minutes fill, group < 256 → mode < 256 → minutes < 65536 →
        ∃ s' p, exec (.forecast t src group mode minutes fill) s = .next s' ∧ s'.peer src = some p ∧
          p.kind = .frame ∧ p.group = some group ∧ p.lastHeard = now ∧ p.holdUntil = old.holdUntil ∧
          (minutes ≤ 999 → ∀ m, modeCode m = mode → p.forecast = some ⟨minutes, now, m⟩) ∧
          ((999 < minutes ∨ 7 < mode) → old.kind = .frame → p.forecast = old.forecast))) ∧
    ∀ (s : State) (src : Nat) (old : Peer), s.peer src = none → s.line.peers.length = 32 →
      (s.line.peers.map (fun p => p.station)).Nodup → old ∈ s.line.peers →
      ∀ guarded : Peer → Prop, guarded = (fun p => p.station = s.cfg.dofferStation ∨ p.station = s.cfg.railStation ∨
        ∃ c ∈ s.pieces.calls, c.carriage = some p.station) →
      ¬guarded old →
      (∀ p ∈ s.line.peers, ¬guarded p →
        old.lastHeard < p.lastHeard ∨ (old.lastHeard = p.lastHeard ∧ old.station ≤ p.station)) →
      (s.makePeer src).line.peers = s.line.peers.map (fun p =>
        if p = old then { station := src, kind := .unknown, group := none, patrol := [],
                          lastHeard := s.clock / 1000, holdUntil := none, forecast := none }
        else p)

/-- R108, R109, R111, R122, R123, R129, R134, R185, R188: a fresh-start HELLO is answered, and the doffer's and the rail's
restart are reported: first in full, the DOFF-CLAIM of a standing claim with its last answer kept, then the ROVING-ASK
notices of the RUN-OUT sections in the order of R123 and the start of the batch timer, then the HELLO, also from a station
that is both; then what stays of it with a batch delay above 0. That the asks for RUN-OUT sections precede the batch that a
delay of 0 ends in the same event is the model's choice (log 20): R129 does not order the two. -/
def Obligations.FreshStartHelloIsAnswered : Prop :=
  (∀ (t src kind group : Nat) (s heard : State), 1 ≤ src → src ≤ 239 → src ≠ s.start.strap → kind < 256 →
    group < 256 → s.start.phase = .active → (s.roving.recs.map (fun r => r.creel)).Nodup →
    heard = ((s.later t).hear).learn
      { dst := 255, src := src, kind := some .hello, fresh := true, reference := 0,
        payload := [BitVec.ofNat 8 src, BitVec.ofNat 8 kind, BitVec.ofNat 8 group] } →
    heard = { s.later t with line := { s.line with
        peers := heard.line.peers, isolated := false, isolationStart := max s.clock t } } ∧
      ∃ (claimed asked : State) (listed : List SupplyRec),
        claimed = (if src = s.cfg.dofferStation ∧ s.frame.claim.state ≠ .none then
          heard.claimed s.frame.claim.lastAnswer else heard) ∧
        inAskOrder listed ((s.roving.recs.filter (fun r => r.state == .runOut)).map (fun r =>
          { r with asks := 1, eta := none, retryAt := some (max s.clock t / 1000 + 30000) })) ∧
        asked = ({ claimed with roving := { s.roving with recs := s.roving.recs.map (fun r =>
          if r.state = .asked ∨ r.state = .acked ∨ r.state = .deferred then
            { r with state := .due, asks := 0, retryAt := none, eta := none }
          else if r.state = .runOut then
            { r with asks := 1, eta := none, retryAt := some (max s.clock t / 1000 + 30000) }
          else r) } } : State).handAsks listed ∧
        ∀ hello : Notice, hello =
          { dst := 255, src := s.start.strap, kind := some .hello, fresh := false, reference := 0,
            payload := [BitVec.ofNat 8 s.start.strap, 1#8, BitVec.ofNat 8 s.cfg.dofferGroup] } →
        (src ≠ s.cfg.railStation → exec (.hello t src kind group true) s = .next (claimed.hand hello)) ∧
        (src = s.cfg.railStation → (∃ r ∈ asked.roving.recs, r.state = .due) →
          exec (.hello t src kind group true) s = .next (asked.startBatch.hand hello)) ∧
        (src = s.cfg.railStation → (∀ r ∈ asked.roving.recs, r.state ≠ .due) →
          exec (.hello t src kind group true) s = .next (asked.hand hello))) ∧
    ∀ (t src kind group : Nat) (s : State), 1 ≤ src → src ≤ 239 → src ≠ s.start.strap → kind < 256 → group < 256 →
    s.cfg.batchDelay ≠ 0 → (s.roving.recs.map (fun r => r.creel)).Nodup →
    (s.start.phase = .listening → ∃ s', exec (.hello t src kind group true) s = .next s' ∧
      s'.line.urgent = s.line.urgent ∧ s'.frame = s.frame ∧ s'.roving = s.roving) ∧
    (s.start.phase = .active → ∃ s', exec (.hello t src kind group true) s = .next s' ∧
      (({ dst := 255, src := s.start.strap, kind := some .hello, fresh := false, reference := 0,
          payload := [BitVec.ofNat 8 s.start.strap, 1#8, BitVec.ofNat 8 s.cfg.dofferGroup] } : Notice)
            ∈ s'.line.urgent ∨ 12 ≤ s'.line.urgent.length) ∧
      (src ≠ s.cfg.railStation → s'.roving = s.roving) ∧
      (src ≠ s.cfg.dofferStation ∨ s.frame.claim.state = .none → s'.frame = s.frame) ∧
      (src = s.cfg.dofferStation → s.frame.claim.state ≠ .none → s'.frame =
        { s.frame with claim := Claim.madeAt (max s.clock t) s.frame.claim.lastAnswer, trim := 0 }) ∧
      (src = s.cfg.railStation →
        s'.roving.recs = s.roving.recs.map (fun r =>
          if r.state = .asked ∨ r.state = .acked ∨ r.state = .deferred then
            { r with state := .due, asks := 0, retryAt := none, eta := none }
          else if r.state = .runOut then
            { r with asks := 1, eta := none, retryAt := some (max s.clock t / 1000 + 30000) }
          else r) ∧
        s'.roving.batchDue = (match s.roving.batchDue with
          | some b => some b
          | none => if s'.roving.recs.any (fun r => r.state == .due) then
              some (max s.clock t / 1000 + 1000 * s.cfg.batchDelay) else none)) ∧
      s'.table = s.table ∧ s'.pieces = s.pieces ∧ s'.drive = s.drive)

/-- R165, R166, R173, R179, R181, R186: the line unit's timers and the start mark. That a start mark sets the last
transition, the line having moved, is read from the spec by the model (log 16). -/
def Obligations.LineTimersAndStartMark : Prop :=
  (∀ (t m : Nat) (s : State), s.start.phase = .active → s.line.ownHold = some m →
      (m ≤ max s.clock t / 1000 → exec (.ownHoldExpiry t) s = .next
        (({ s.later t with line := { s.line with ownHold := some (m + 1020) } } : State).hand
          { dst := 255, src := s.start.strap, kind := some .hold, fresh := false, reference := 0,
            payload := [255#8] })) ∧
      (max s.clock t / 1000 < m → exec (.ownHoldExpiry t) s = .next (s.later t))) ∧
    (∀ (t station : Nat) (s : State), s.underWay → exec (.peerHoldExpiry t station) s = .next
      { s.later t with line := { s.line with peers := s.line.peers.map (fun p =>
          if p.station = station ∧ p.holdUntil.any (fun m => decide (m ≤ max s.clock t / 1000)) = true then
            { p with holdUntil := none }
          else p) } }) ∧
    (∀ (t : Nat) (s : State), s.underWay →
      (s.line.isolationStart + 60000000 ≤ max s.clock t → exec (.isolationTimeout t) s = .next
        { s.later t with line := { s.line with isolated := true } }) ∧
      (max s.clock t < s.line.isolationStart + 60000000 →
        exec (.isolationTimeout t) s = .next (s.later t))) ∧
    ∀ (t alternation : Nat) (s : State), s.underWay →
      (8 ≤ alternation → s.transmits = false → exec (.startMark t alternation) s = .next
        { s.later t with line := { s.line with
            receiving := true, lastTransition := max s.line.lastTransition (max s.clock t) } }) ∧
      ((alternation < 8 ∨ s.transmits = true) → exec (.startMark t alternation) s = .next
        { s.later t with line := { s.line with lastTransition := max s.line.lastTransition (max s.clock t) } })

/-! ## What a command leaves alone, and invariants -/

/-- The frame of every command: the units it leaves as they stand (01 to 08, What each block owns). -/
def Obligations.CommandsLeaveOtherUnitsAlone : Prop :=
  ∀ (c : Instr) (s s' : State), exec c s = .next s' →
    s'.pending = s.pending ∧
    (begins c = false → s'.start = s.start ∧ s.clock ≤ s'.clock) ∧
    (movesPins c = false → s'.pins = s.pins) ∧
    (begins c = false → (∀ t, c ≠ .frameMinute t) → s'.minutesBegun = s.minutesBegun) ∧
    (movesChain c = false → s'.chain = s.chain) ∧
    (movesDrive c = false → s'.drive = s.drive) ∧
    (movesFrame c = false → s'.frame = s.frame) ∧
    (movesTable c = false → s'.table = s.table) ∧
    (movesPieces c = false → s'.pieces = s.pieces) ∧
    (movesRoving c = false → s'.roving = s.roving) ∧
    (silent c = true → s'.line = s.line ∧ s'.tally = s.tally) ∧
    (quiet c = true → s'.line = { s.line with busy := s'.line.busy } ∧ s'.tally = s.tally) ∧
    (∀ t side, c = .scanTimerExpiry t side → s'.line = s.line) ∧
    (∀ t, c = .frameMinute t → s'.line = s.line) ∧
    ((∃ t n, c = .startMark t n) ∨ (∃ t, c = .isolationTimeout t) ∨ (∃ t n, c = .peerHoldExpiry t n) ∨
      (∃ t, c = .firstAttempt t) ∨ (∃ t, c = .retryAttempt t) ∨ (∃ t, c = .noticeSent t) →
        s'.tally = s.tally)

/-- R44, R130, R141 to R143, R151, R167, R168, R177, R182: every queue, table, ring and count stays within its bounds. -/
def Obligations.BoundsAndCountsAreKept : Prop :=
  ∀ s s' : State, s.withinBounds → s.countsInRange → step s = .next s' → s'.withinBounds ∧ s'.countsInRange

/-- R41, R47, R53, R54, R57, R81, R92, R107: drive values, timers, trim, mode, reason and calls stay sound. That fill 1000
at a start sets the full latch is the model's reading (log 14). -/
def Obligations.FrameSoundnessIsKept : Prop :=
  ∀ s s' : State, s.frameSound → step s = .next s' → s'.frameSound

/-- R22, R23, R63, R64: the spindle table, the break list and the call table stay in agreement. -/
def Obligations.TableSoundnessIsKept : Prop :=
  ∀ s s' : State, s.frameSound → s.tableSound → step s = .next s' → s'.tableSound

/-- The invariants hold right after reset. -/
def Obligations.InvariantsHoldAtReset : Prop :=
  State.reset.withinBounds ∧ State.reset.countsInRange ∧ State.reset.frameSound ∧ State.reset.tableSound
end

