-- ==== Sys2Proof/Laws/State.lean ====
section
/-! SUPPORT. What each setter of a unit leaves and what it sets, field by field, and what the readings of part time and of
the start become under it. All true by rfl. -/

namespace Sys2Proof.Machine

/-! ## withPending -/

section

variable (s : State) (v : List Instr)

@[simp] theorem withPending_pending : (s.withPending v).pending = v := rfl
@[simp] theorem withPending_clock : (s.withPending v).clock = s.clock := rfl
@[simp] theorem withPending_minutesBegun : (s.withPending v).minutesBegun = s.minutesBegun := rfl
@[simp] theorem withPending_freeUses : (s.withPending v).freeUses = s.freeUses := rfl
@[simp] theorem withPending_start : (s.withPending v).start = s.start := rfl
@[simp] theorem withPending_pins : (s.withPending v).pins = s.pins := rfl
@[simp] theorem withPending_chain : (s.withPending v).chain = s.chain := rfl
@[simp] theorem withPending_table : (s.withPending v).table = s.table := rfl
@[simp] theorem withPending_pieces : (s.withPending v).pieces = s.pieces := rfl
@[simp] theorem withPending_drive : (s.withPending v).drive = s.drive := rfl
@[simp] theorem withPending_frame : (s.withPending v).frame = s.frame := rfl
@[simp] theorem withPending_roving : (s.withPending v).roving = s.roving := rfl
@[simp] theorem withPending_tally : (s.withPending v).tally = s.tally := rfl
@[simp] theorem withPending_line : (s.withPending v).line = s.line := rfl
@[simp] theorem withPending_nowMs : (s.withPending v).nowMs = s.nowMs := rfl
@[simp] theorem withPending_second : (s.withPending v).second = s.second := rfl
@[simp] theorem withPending_minute : (s.withPending v).minute = s.minute := rfl
@[simp] theorem withPending_cfg : (s.withPending v).cfg = s.cfg := rfl
@[simp] theorem withPending_active : (s.withPending v).active = s.active := rfl
@[simp] theorem withPending_listens : (s.withPending v).listens = s.listens := rfl
@[simp] theorem withPending_clockRuns : (s.withPending v).clockRuns = s.clockRuns := rfl
@[simp] theorem withPending_spindlesA : (s.withPending v).spindlesA = s.spindlesA := rfl
@[simp] theorem withPending_spindlesB : (s.withPending v).spindlesB = s.spindlesB := rfl
@[simp] theorem withPending_sideOf (n : Nat) : (s.withPending v).sideOf n = s.sideOf n := rfl
@[simp] theorem withPending_sectionOf (n : Nat) : (s.withPending v).sectionOf n = s.sectionOf n := rfl
@[simp] theorem withPending_spindle (n : Nat) : (s.withPending v).spindle n = s.spindle n := rfl
@[simp] theorem withPending_supply (n : Nat) : (s.withPending v).supply n = s.supply n := rfl
@[simp] theorem withPending_withPending (w : List Instr) : (s.withPending v).withPending w = s.withPending w := rfl

end

/-! ## withClock -/

section

variable (s : State) (v : Nat)

@[simp] theorem withClock_pending : (s.withClock v).pending = s.pending := rfl
@[simp] theorem withClock_clock : (s.withClock v).clock = v := rfl
@[simp] theorem withClock_minutesBegun : (s.withClock v).minutesBegun = s.minutesBegun := rfl
@[simp] theorem withClock_freeUses : (s.withClock v).freeUses = s.freeUses := rfl
@[simp] theorem withClock_start : (s.withClock v).start = s.start := rfl
@[simp] theorem withClock_pins : (s.withClock v).pins = s.pins := rfl
@[simp] theorem withClock_chain : (s.withClock v).chain = s.chain := rfl
@[simp] theorem withClock_table : (s.withClock v).table = s.table := rfl
@[simp] theorem withClock_pieces : (s.withClock v).pieces = s.pieces := rfl
@[simp] theorem withClock_drive : (s.withClock v).drive = s.drive := rfl
@[simp] theorem withClock_frame : (s.withClock v).frame = s.frame := rfl
@[simp] theorem withClock_roving : (s.withClock v).roving = s.roving := rfl
@[simp] theorem withClock_tally : (s.withClock v).tally = s.tally := rfl
@[simp] theorem withClock_line : (s.withClock v).line = s.line := rfl
@[simp] theorem withClock_cfg : (s.withClock v).cfg = s.cfg := rfl
@[simp] theorem withClock_active : (s.withClock v).active = s.active := rfl
@[simp] theorem withClock_listens : (s.withClock v).listens = s.listens := rfl
@[simp] theorem withClock_clockRuns : (s.withClock v).clockRuns = s.clockRuns := rfl
@[simp] theorem withClock_spindlesA : (s.withClock v).spindlesA = s.spindlesA := rfl
@[simp] theorem withClock_spindlesB : (s.withClock v).spindlesB = s.spindlesB := rfl
@[simp] theorem withClock_sideOf (n : Nat) : (s.withClock v).sideOf n = s.sideOf n := rfl
@[simp] theorem withClock_sectionOf (n : Nat) : (s.withClock v).sectionOf n = s.sectionOf n := rfl
@[simp] theorem withClock_spindle (n : Nat) : (s.withClock v).spindle n = s.spindle n := rfl
@[simp] theorem withClock_supply (n : Nat) : (s.withClock v).supply n = s.supply n := rfl
@[simp] theorem withClock_withClock (w : Nat) : (s.withClock v).withClock w = s.withClock w := rfl

end

/-! ## withMinutesBegun -/

section

variable (s : State) (v : Nat)

@[simp] theorem withMinutesBegun_pending : (s.withMinutesBegun v).pending = s.pending := rfl
@[simp] theorem withMinutesBegun_clock : (s.withMinutesBegun v).clock = s.clock := rfl
@[simp] theorem withMinutesBegun_minutesBegun : (s.withMinutesBegun v).minutesBegun = v := rfl
@[simp] theorem withMinutesBegun_freeUses : (s.withMinutesBegun v).freeUses = s.freeUses := rfl
@[simp] theorem withMinutesBegun_start : (s.withMinutesBegun v).start = s.start := rfl
@[simp] theorem withMinutesBegun_pins : (s.withMinutesBegun v).pins = s.pins := rfl
@[simp] theorem withMinutesBegun_chain : (s.withMinutesBegun v).chain = s.chain := rfl
@[simp] theorem withMinutesBegun_table : (s.withMinutesBegun v).table = s.table := rfl
@[simp] theorem withMinutesBegun_pieces : (s.withMinutesBegun v).pieces = s.pieces := rfl
@[simp] theorem withMinutesBegun_drive : (s.withMinutesBegun v).drive = s.drive := rfl
@[simp] theorem withMinutesBegun_frame : (s.withMinutesBegun v).frame = s.frame := rfl
@[simp] theorem withMinutesBegun_roving : (s.withMinutesBegun v).roving = s.roving := rfl
@[simp] theorem withMinutesBegun_tally : (s.withMinutesBegun v).tally = s.tally := rfl
@[simp] theorem withMinutesBegun_line : (s.withMinutesBegun v).line = s.line := rfl
@[simp] theorem withMinutesBegun_nowMs : (s.withMinutesBegun v).nowMs = s.nowMs := rfl
@[simp] theorem withMinutesBegun_second : (s.withMinutesBegun v).second = s.second := rfl
@[simp] theorem withMinutesBegun_minute : (s.withMinutesBegun v).minute = s.minute := rfl
@[simp] theorem withMinutesBegun_cfg : (s.withMinutesBegun v).cfg = s.cfg := rfl
@[simp] theorem withMinutesBegun_active : (s.withMinutesBegun v).active = s.active := rfl
@[simp] theorem withMinutesBegun_listens : (s.withMinutesBegun v).listens = s.listens := rfl
@[simp] theorem withMinutesBegun_clockRuns : (s.withMinutesBegun v).clockRuns = s.clockRuns := rfl
@[simp] theorem withMinutesBegun_spindlesA : (s.withMinutesBegun v).spindlesA = s.spindlesA := rfl
@[simp] theorem withMinutesBegun_spindlesB : (s.withMinutesBegun v).spindlesB = s.spindlesB := rfl
@[simp] theorem withMinutesBegun_sideOf (n : Nat) : (s.withMinutesBegun v).sideOf n = s.sideOf n := rfl
@[simp] theorem withMinutesBegun_sectionOf (n : Nat) : (s.withMinutesBegun v).sectionOf n = s.sectionOf n := rfl
@[simp] theorem withMinutesBegun_spindle (n : Nat) : (s.withMinutesBegun v).spindle n = s.spindle n := rfl
@[simp] theorem withMinutesBegun_supply (n : Nat) : (s.withMinutesBegun v).supply n = s.supply n := rfl
@[simp] theorem withMinutesBegun_withMinutesBegun (w : Nat) : (s.withMinutesBegun v).withMinutesBegun w = s.withMinutesBegun w := rfl

end

/-! ## withFreeUses -/

section

variable (s : State) (v : Nat)

@[simp] theorem withFreeUses_pending : (s.withFreeUses v).pending = s.pending := rfl
@[simp] theorem withFreeUses_clock : (s.withFreeUses v).clock = s.clock := rfl
@[simp] theorem withFreeUses_minutesBegun : (s.withFreeUses v).minutesBegun = s.minutesBegun := rfl
@[simp] theorem withFreeUses_freeUses : (s.withFreeUses v).freeUses = v := rfl
@[simp] theorem withFreeUses_start : (s.withFreeUses v).start = s.start := rfl
@[simp] theorem withFreeUses_pins : (s.withFreeUses v).pins = s.pins := rfl
@[simp] theorem withFreeUses_chain : (s.withFreeUses v).chain = s.chain := rfl
@[simp] theorem withFreeUses_table : (s.withFreeUses v).table = s.table := rfl
@[simp] theorem withFreeUses_pieces : (s.withFreeUses v).pieces = s.pieces := rfl
@[simp] theorem withFreeUses_drive : (s.withFreeUses v).drive = s.drive := rfl
@[simp] theorem withFreeUses_frame : (s.withFreeUses v).frame = s.frame := rfl
@[simp] theorem withFreeUses_roving : (s.withFreeUses v).roving = s.roving := rfl
@[simp] theorem withFreeUses_tally : (s.withFreeUses v).tally = s.tally := rfl
@[simp] theorem withFreeUses_line : (s.withFreeUses v).line = s.line := rfl
@[simp] theorem withFreeUses_nowMs : (s.withFreeUses v).nowMs = s.nowMs := rfl
@[simp] theorem withFreeUses_second : (s.withFreeUses v).second = s.second := rfl
@[simp] theorem withFreeUses_minute : (s.withFreeUses v).minute = s.minute := rfl
@[simp] theorem withFreeUses_cfg : (s.withFreeUses v).cfg = s.cfg := rfl
@[simp] theorem withFreeUses_active : (s.withFreeUses v).active = s.active := rfl
@[simp] theorem withFreeUses_listens : (s.withFreeUses v).listens = s.listens := rfl
@[simp] theorem withFreeUses_clockRuns : (s.withFreeUses v).clockRuns = s.clockRuns := rfl
@[simp] theorem withFreeUses_spindlesA : (s.withFreeUses v).spindlesA = s.spindlesA := rfl
@[simp] theorem withFreeUses_spindlesB : (s.withFreeUses v).spindlesB = s.spindlesB := rfl
@[simp] theorem withFreeUses_sideOf (n : Nat) : (s.withFreeUses v).sideOf n = s.sideOf n := rfl
@[simp] theorem withFreeUses_sectionOf (n : Nat) : (s.withFreeUses v).sectionOf n = s.sectionOf n := rfl
@[simp] theorem withFreeUses_spindle (n : Nat) : (s.withFreeUses v).spindle n = s.spindle n := rfl
@[simp] theorem withFreeUses_supply (n : Nat) : (s.withFreeUses v).supply n = s.supply n := rfl
@[simp] theorem withFreeUses_withFreeUses (w : Nat) : (s.withFreeUses v).withFreeUses w = s.withFreeUses w := rfl

end

/-! ## withStart -/

section

variable (s : State) (v : StartUnit)

@[simp] theorem withStart_pending : (s.withStart v).pending = s.pending := rfl
@[simp] theorem withStart_clock : (s.withStart v).clock = s.clock := rfl
@[simp] theorem withStart_minutesBegun : (s.withStart v).minutesBegun = s.minutesBegun := rfl
@[simp] theorem withStart_freeUses : (s.withStart v).freeUses = s.freeUses := rfl
@[simp] theorem withStart_start : (s.withStart v).start = v := rfl
@[simp] theorem withStart_pins : (s.withStart v).pins = s.pins := rfl
@[simp] theorem withStart_chain : (s.withStart v).chain = s.chain := rfl
@[simp] theorem withStart_table : (s.withStart v).table = s.table := rfl
@[simp] theorem withStart_pieces : (s.withStart v).pieces = s.pieces := rfl
@[simp] theorem withStart_drive : (s.withStart v).drive = s.drive := rfl
@[simp] theorem withStart_frame : (s.withStart v).frame = s.frame := rfl
@[simp] theorem withStart_roving : (s.withStart v).roving = s.roving := rfl
@[simp] theorem withStart_tally : (s.withStart v).tally = s.tally := rfl
@[simp] theorem withStart_line : (s.withStart v).line = s.line := rfl
@[simp] theorem withStart_nowMs : (s.withStart v).nowMs = s.nowMs := rfl
@[simp] theorem withStart_second : (s.withStart v).second = s.second := rfl
@[simp] theorem withStart_minute : (s.withStart v).minute = s.minute := rfl
@[simp] theorem withStart_spindle (n : Nat) : (s.withStart v).spindle n = s.spindle n := rfl
@[simp] theorem withStart_supply (n : Nat) : (s.withStart v).supply n = s.supply n := rfl
@[simp] theorem withStart_withStart (w : StartUnit) : (s.withStart v).withStart w = s.withStart w := rfl

end

/-! ## withPins -/

section

variable (s : State) (v : Pins)

@[simp] theorem withPins_pending : (s.withPins v).pending = s.pending := rfl
@[simp] theorem withPins_clock : (s.withPins v).clock = s.clock := rfl
@[simp] theorem withPins_minutesBegun : (s.withPins v).minutesBegun = s.minutesBegun := rfl
@[simp] theorem withPins_freeUses : (s.withPins v).freeUses = s.freeUses := rfl
@[simp] theorem withPins_start : (s.withPins v).start = s.start := rfl
@[simp] theorem withPins_pins : (s.withPins v).pins = v := rfl
@[simp] theorem withPins_chain : (s.withPins v).chain = s.chain := rfl
@[simp] theorem withPins_table : (s.withPins v).table = s.table := rfl
@[simp] theorem withPins_pieces : (s.withPins v).pieces = s.pieces := rfl
@[simp] theorem withPins_drive : (s.withPins v).drive = s.drive := rfl
@[simp] theorem withPins_frame : (s.withPins v).frame = s.frame := rfl
@[simp] theorem withPins_roving : (s.withPins v).roving = s.roving := rfl
@[simp] theorem withPins_tally : (s.withPins v).tally = s.tally := rfl
@[simp] theorem withPins_line : (s.withPins v).line = s.line := rfl
@[simp] theorem withPins_nowMs : (s.withPins v).nowMs = s.nowMs := rfl
@[simp] theorem withPins_second : (s.withPins v).second = s.second := rfl
@[simp] theorem withPins_minute : (s.withPins v).minute = s.minute := rfl
@[simp] theorem withPins_cfg : (s.withPins v).cfg = s.cfg := rfl
@[simp] theorem withPins_active : (s.withPins v).active = s.active := rfl
@[simp] theorem withPins_listens : (s.withPins v).listens = s.listens := rfl
@[simp] theorem withPins_clockRuns : (s.withPins v).clockRuns = s.clockRuns := rfl
@[simp] theorem withPins_spindlesA : (s.withPins v).spindlesA = s.spindlesA := rfl
@[simp] theorem withPins_spindlesB : (s.withPins v).spindlesB = s.spindlesB := rfl
@[simp] theorem withPins_sideOf (n : Nat) : (s.withPins v).sideOf n = s.sideOf n := rfl
@[simp] theorem withPins_sectionOf (n : Nat) : (s.withPins v).sectionOf n = s.sectionOf n := rfl
@[simp] theorem withPins_spindle (n : Nat) : (s.withPins v).spindle n = s.spindle n := rfl
@[simp] theorem withPins_supply (n : Nat) : (s.withPins v).supply n = s.supply n := rfl
@[simp] theorem withPins_withPins (w : Pins) : (s.withPins v).withPins w = s.withPins w := rfl

end

/-! ## withChain -/

section

variable (s : State) (v : ChainUnit)

@[simp] theorem withChain_pending : (s.withChain v).pending = s.pending := rfl
@[simp] theorem withChain_clock : (s.withChain v).clock = s.clock := rfl
@[simp] theorem withChain_minutesBegun : (s.withChain v).minutesBegun = s.minutesBegun := rfl
@[simp] theorem withChain_freeUses : (s.withChain v).freeUses = s.freeUses := rfl
@[simp] theorem withChain_start : (s.withChain v).start = s.start := rfl
@[simp] theorem withChain_pins : (s.withChain v).pins = s.pins := rfl
@[simp] theorem withChain_chain : (s.withChain v).chain = v := rfl
@[simp] theorem withChain_table : (s.withChain v).table = s.table := rfl
@[simp] theorem withChain_pieces : (s.withChain v).pieces = s.pieces := rfl
@[simp] theorem withChain_drive : (s.withChain v).drive = s.drive := rfl
@[simp] theorem withChain_frame : (s.withChain v).frame = s.frame := rfl
@[simp] theorem withChain_roving : (s.withChain v).roving = s.roving := rfl
@[simp] theorem withChain_tally : (s.withChain v).tally = s.tally := rfl
@[simp] theorem withChain_line : (s.withChain v).line = s.line := rfl
@[simp] theorem withChain_nowMs : (s.withChain v).nowMs = s.nowMs := rfl
@[simp] theorem withChain_second : (s.withChain v).second = s.second := rfl
@[simp] theorem withChain_minute : (s.withChain v).minute = s.minute := rfl
@[simp] theorem withChain_cfg : (s.withChain v).cfg = s.cfg := rfl
@[simp] theorem withChain_active : (s.withChain v).active = s.active := rfl
@[simp] theorem withChain_listens : (s.withChain v).listens = s.listens := rfl
@[simp] theorem withChain_clockRuns : (s.withChain v).clockRuns = s.clockRuns := rfl
@[simp] theorem withChain_spindlesA : (s.withChain v).spindlesA = s.spindlesA := rfl
@[simp] theorem withChain_spindlesB : (s.withChain v).spindlesB = s.spindlesB := rfl
@[simp] theorem withChain_sideOf (n : Nat) : (s.withChain v).sideOf n = s.sideOf n := rfl
@[simp] theorem withChain_sectionOf (n : Nat) : (s.withChain v).sectionOf n = s.sectionOf n := rfl
@[simp] theorem withChain_spindle (n : Nat) : (s.withChain v).spindle n = s.spindle n := rfl
@[simp] theorem withChain_supply (n : Nat) : (s.withChain v).supply n = s.supply n := rfl
@[simp] theorem withChain_withChain (w : ChainUnit) : (s.withChain v).withChain w = s.withChain w := rfl

end

/-! ## withTable -/

section

variable (s : State) (v : SpindleTable)

@[simp] theorem withTable_pending : (s.withTable v).pending = s.pending := rfl
@[simp] theorem withTable_clock : (s.withTable v).clock = s.clock := rfl
@[simp] theorem withTable_minutesBegun : (s.withTable v).minutesBegun = s.minutesBegun := rfl
@[simp] theorem withTable_freeUses : (s.withTable v).freeUses = s.freeUses := rfl
@[simp] theorem withTable_start : (s.withTable v).start = s.start := rfl
@[simp] theorem withTable_pins : (s.withTable v).pins = s.pins := rfl
@[simp] theorem withTable_chain : (s.withTable v).chain = s.chain := rfl
@[simp] theorem withTable_table : (s.withTable v).table = v := rfl
@[simp] theorem withTable_pieces : (s.withTable v).pieces = s.pieces := rfl
@[simp] theorem withTable_drive : (s.withTable v).drive = s.drive := rfl
@[simp] theorem withTable_frame : (s.withTable v).frame = s.frame := rfl
@[simp] theorem withTable_roving : (s.withTable v).roving = s.roving := rfl
@[simp] theorem withTable_tally : (s.withTable v).tally = s.tally := rfl
@[simp] theorem withTable_line : (s.withTable v).line = s.line := rfl
@[simp] theorem withTable_nowMs : (s.withTable v).nowMs = s.nowMs := rfl
@[simp] theorem withTable_second : (s.withTable v).second = s.second := rfl
@[simp] theorem withTable_minute : (s.withTable v).minute = s.minute := rfl
@[simp] theorem withTable_cfg : (s.withTable v).cfg = s.cfg := rfl
@[simp] theorem withTable_active : (s.withTable v).active = s.active := rfl
@[simp] theorem withTable_listens : (s.withTable v).listens = s.listens := rfl
@[simp] theorem withTable_clockRuns : (s.withTable v).clockRuns = s.clockRuns := rfl
@[simp] theorem withTable_spindlesA : (s.withTable v).spindlesA = s.spindlesA := rfl
@[simp] theorem withTable_spindlesB : (s.withTable v).spindlesB = s.spindlesB := rfl
@[simp] theorem withTable_sideOf (n : Nat) : (s.withTable v).sideOf n = s.sideOf n := rfl
@[simp] theorem withTable_sectionOf (n : Nat) : (s.withTable v).sectionOf n = s.sectionOf n := rfl
@[simp] theorem withTable_supply (n : Nat) : (s.withTable v).supply n = s.supply n := rfl
@[simp] theorem withTable_withTable (w : SpindleTable) : (s.withTable v).withTable w = s.withTable w := rfl

end

/-! ## withPieces -/

section

variable (s : State) (v : Dispatcher)

@[simp] theorem withPieces_pending : (s.withPieces v).pending = s.pending := rfl
@[simp] theorem withPieces_clock : (s.withPieces v).clock = s.clock := rfl
@[simp] theorem withPieces_minutesBegun : (s.withPieces v).minutesBegun = s.minutesBegun := rfl
@[simp] theorem withPieces_freeUses : (s.withPieces v).freeUses = s.freeUses := rfl
@[simp] theorem withPieces_start : (s.withPieces v).start = s.start := rfl
@[simp] theorem withPieces_pins : (s.withPieces v).pins = s.pins := rfl
@[simp] theorem withPieces_chain : (s.withPieces v).chain = s.chain := rfl
@[simp] theorem withPieces_table : (s.withPieces v).table = s.table := rfl
@[simp] theorem withPieces_pieces : (s.withPieces v).pieces = v := rfl
@[simp] theorem withPieces_drive : (s.withPieces v).drive = s.drive := rfl
@[simp] theorem withPieces_frame : (s.withPieces v).frame = s.frame := rfl
@[simp] theorem withPieces_roving : (s.withPieces v).roving = s.roving := rfl
@[simp] theorem withPieces_tally : (s.withPieces v).tally = s.tally := rfl
@[simp] theorem withPieces_line : (s.withPieces v).line = s.line := rfl
@[simp] theorem withPieces_nowMs : (s.withPieces v).nowMs = s.nowMs := rfl
@[simp] theorem withPieces_second : (s.withPieces v).second = s.second := rfl
@[simp] theorem withPieces_minute : (s.withPieces v).minute = s.minute := rfl
@[simp] theorem withPieces_cfg : (s.withPieces v).cfg = s.cfg := rfl
@[simp] theorem withPieces_active : (s.withPieces v).active = s.active := rfl
@[simp] theorem withPieces_listens : (s.withPieces v).listens = s.listens := rfl
@[simp] theorem withPieces_clockRuns : (s.withPieces v).clockRuns = s.clockRuns := rfl
@[simp] theorem withPieces_spindlesA : (s.withPieces v).spindlesA = s.spindlesA := rfl
@[simp] theorem withPieces_spindlesB : (s.withPieces v).spindlesB = s.spindlesB := rfl
@[simp] theorem withPieces_sideOf (n : Nat) : (s.withPieces v).sideOf n = s.sideOf n := rfl
@[simp] theorem withPieces_sectionOf (n : Nat) : (s.withPieces v).sectionOf n = s.sectionOf n := rfl
@[simp] theorem withPieces_spindle (n : Nat) : (s.withPieces v).spindle n = s.spindle n := rfl
@[simp] theorem withPieces_supply (n : Nat) : (s.withPieces v).supply n = s.supply n := rfl
@[simp] theorem withPieces_withPieces (w : Dispatcher) : (s.withPieces v).withPieces w = s.withPieces w := rfl

end

/-! ## withDrive -/

section

variable (s : State) (v : DriveUnit)

@[simp] theorem withDrive_pending : (s.withDrive v).pending = s.pending := rfl
@[simp] theorem withDrive_clock : (s.withDrive v).clock = s.clock := rfl
@[simp] theorem withDrive_minutesBegun : (s.withDrive v).minutesBegun = s.minutesBegun := rfl
@[simp] theorem withDrive_freeUses : (s.withDrive v).freeUses = s.freeUses := rfl
@[simp] theorem withDrive_start : (s.withDrive v).start = s.start := rfl
@[simp] theorem withDrive_pins : (s.withDrive v).pins = s.pins := rfl
@[simp] theorem withDrive_chain : (s.withDrive v).chain = s.chain := rfl
@[simp] theorem withDrive_table : (s.withDrive v).table = s.table := rfl
@[simp] theorem withDrive_pieces : (s.withDrive v).pieces = s.pieces := rfl
@[simp] theorem withDrive_drive : (s.withDrive v).drive = v := rfl
@[simp] theorem withDrive_frame : (s.withDrive v).frame = s.frame := rfl
@[simp] theorem withDrive_roving : (s.withDrive v).roving = s.roving := rfl
@[simp] theorem withDrive_tally : (s.withDrive v).tally = s.tally := rfl
@[simp] theorem withDrive_line : (s.withDrive v).line = s.line := rfl
@[simp] theorem withDrive_nowMs : (s.withDrive v).nowMs = s.nowMs := rfl
@[simp] theorem withDrive_second : (s.withDrive v).second = s.second := rfl
@[simp] theorem withDrive_minute : (s.withDrive v).minute = s.minute := rfl
@[simp] theorem withDrive_cfg : (s.withDrive v).cfg = s.cfg := rfl
@[simp] theorem withDrive_active : (s.withDrive v).active = s.active := rfl
@[simp] theorem withDrive_listens : (s.withDrive v).listens = s.listens := rfl
@[simp] theorem withDrive_clockRuns : (s.withDrive v).clockRuns = s.clockRuns := rfl
@[simp] theorem withDrive_spindlesA : (s.withDrive v).spindlesA = s.spindlesA := rfl
@[simp] theorem withDrive_spindlesB : (s.withDrive v).spindlesB = s.spindlesB := rfl
@[simp] theorem withDrive_sideOf (n : Nat) : (s.withDrive v).sideOf n = s.sideOf n := rfl
@[simp] theorem withDrive_sectionOf (n : Nat) : (s.withDrive v).sectionOf n = s.sectionOf n := rfl
@[simp] theorem withDrive_spindle (n : Nat) : (s.withDrive v).spindle n = s.spindle n := rfl
@[simp] theorem withDrive_supply (n : Nat) : (s.withDrive v).supply n = s.supply n := rfl
@[simp] theorem withDrive_withDrive (w : DriveUnit) : (s.withDrive v).withDrive w = s.withDrive w := rfl

end

/-! ## withFrame -/

section

variable (s : State) (v : FrameUnit)

@[simp] theorem withFrame_pending : (s.withFrame v).pending = s.pending := rfl
@[simp] theorem withFrame_clock : (s.withFrame v).clock = s.clock := rfl
@[simp] theorem withFrame_minutesBegun : (s.withFrame v).minutesBegun = s.minutesBegun := rfl
@[simp] theorem withFrame_freeUses : (s.withFrame v).freeUses = s.freeUses := rfl
@[simp] theorem withFrame_start : (s.withFrame v).start = s.start := rfl
@[simp] theorem withFrame_pins : (s.withFrame v).pins = s.pins := rfl
@[simp] theorem withFrame_chain : (s.withFrame v).chain = s.chain := rfl
@[simp] theorem withFrame_table : (s.withFrame v).table = s.table := rfl
@[simp] theorem withFrame_pieces : (s.withFrame v).pieces = s.pieces := rfl
@[simp] theorem withFrame_drive : (s.withFrame v).drive = s.drive := rfl
@[simp] theorem withFrame_frame : (s.withFrame v).frame = v := rfl
@[simp] theorem withFrame_roving : (s.withFrame v).roving = s.roving := rfl
@[simp] theorem withFrame_tally : (s.withFrame v).tally = s.tally := rfl
@[simp] theorem withFrame_line : (s.withFrame v).line = s.line := rfl
@[simp] theorem withFrame_nowMs : (s.withFrame v).nowMs = s.nowMs := rfl
@[simp] theorem withFrame_second : (s.withFrame v).second = s.second := rfl
@[simp] theorem withFrame_minute : (s.withFrame v).minute = s.minute := rfl
@[simp] theorem withFrame_cfg : (s.withFrame v).cfg = s.cfg := rfl
@[simp] theorem withFrame_active : (s.withFrame v).active = s.active := rfl
@[simp] theorem withFrame_listens : (s.withFrame v).listens = s.listens := rfl
@[simp] theorem withFrame_clockRuns : (s.withFrame v).clockRuns = s.clockRuns := rfl
@[simp] theorem withFrame_spindlesA : (s.withFrame v).spindlesA = s.spindlesA := rfl
@[simp] theorem withFrame_spindlesB : (s.withFrame v).spindlesB = s.spindlesB := rfl
@[simp] theorem withFrame_sideOf (n : Nat) : (s.withFrame v).sideOf n = s.sideOf n := rfl
@[simp] theorem withFrame_sectionOf (n : Nat) : (s.withFrame v).sectionOf n = s.sectionOf n := rfl
@[simp] theorem withFrame_spindle (n : Nat) : (s.withFrame v).spindle n = s.spindle n := rfl
@[simp] theorem withFrame_supply (n : Nat) : (s.withFrame v).supply n = s.supply n := rfl
@[simp] theorem withFrame_withFrame (w : FrameUnit) : (s.withFrame v).withFrame w = s.withFrame w := rfl

end

/-! ## withRoving -/

section

variable (s : State) (v : RovingUnit)

@[simp] theorem withRoving_pending : (s.withRoving v).pending = s.pending := rfl
@[simp] theorem withRoving_clock : (s.withRoving v).clock = s.clock := rfl
@[simp] theorem withRoving_minutesBegun : (s.withRoving v).minutesBegun = s.minutesBegun := rfl
@[simp] theorem withRoving_freeUses : (s.withRoving v).freeUses = s.freeUses := rfl
@[simp] theorem withRoving_start : (s.withRoving v).start = s.start := rfl
@[simp] theorem withRoving_pins : (s.withRoving v).pins = s.pins := rfl
@[simp] theorem withRoving_chain : (s.withRoving v).chain = s.chain := rfl
@[simp] theorem withRoving_table : (s.withRoving v).table = s.table := rfl
@[simp] theorem withRoving_pieces : (s.withRoving v).pieces = s.pieces := rfl
@[simp] theorem withRoving_drive : (s.withRoving v).drive = s.drive := rfl
@[simp] theorem withRoving_frame : (s.withRoving v).frame = s.frame := rfl
@[simp] theorem withRoving_roving : (s.withRoving v).roving = v := rfl
@[simp] theorem withRoving_tally : (s.withRoving v).tally = s.tally := rfl
@[simp] theorem withRoving_line : (s.withRoving v).line = s.line := rfl
@[simp] theorem withRoving_nowMs : (s.withRoving v).nowMs = s.nowMs := rfl
@[simp] theorem withRoving_second : (s.withRoving v).second = s.second := rfl
@[simp] theorem withRoving_minute : (s.withRoving v).minute = s.minute := rfl
@[simp] theorem withRoving_cfg : (s.withRoving v).cfg = s.cfg := rfl
@[simp] theorem withRoving_active : (s.withRoving v).active = s.active := rfl
@[simp] theorem withRoving_listens : (s.withRoving v).listens = s.listens := rfl
@[simp] theorem withRoving_clockRuns : (s.withRoving v).clockRuns = s.clockRuns := rfl
@[simp] theorem withRoving_spindlesA : (s.withRoving v).spindlesA = s.spindlesA := rfl
@[simp] theorem withRoving_spindlesB : (s.withRoving v).spindlesB = s.spindlesB := rfl
@[simp] theorem withRoving_sideOf (n : Nat) : (s.withRoving v).sideOf n = s.sideOf n := rfl
@[simp] theorem withRoving_sectionOf (n : Nat) : (s.withRoving v).sectionOf n = s.sectionOf n := rfl
@[simp] theorem withRoving_spindle (n : Nat) : (s.withRoving v).spindle n = s.spindle n := rfl
@[simp] theorem withRoving_withRoving (w : RovingUnit) : (s.withRoving v).withRoving w = s.withRoving w := rfl

end

/-! ## withTally -/

section

variable (s : State) (v : TallyUnit)

@[simp] theorem withTally_pending : (s.withTally v).pending = s.pending := rfl
@[simp] theorem withTally_clock : (s.withTally v).clock = s.clock := rfl
@[simp] theorem withTally_minutesBegun : (s.withTally v).minutesBegun = s.minutesBegun := rfl
@[simp] theorem withTally_freeUses : (s.withTally v).freeUses = s.freeUses := rfl
@[simp] theorem withTally_start : (s.withTally v).start = s.start := rfl
@[simp] theorem withTally_pins : (s.withTally v).pins = s.pins := rfl
@[simp] theorem withTally_chain : (s.withTally v).chain = s.chain := rfl
@[simp] theorem withTally_table : (s.withTally v).table = s.table := rfl
@[simp] theorem withTally_pieces : (s.withTally v).pieces = s.pieces := rfl
@[simp] theorem withTally_drive : (s.withTally v).drive = s.drive := rfl
@[simp] theorem withTally_frame : (s.withTally v).frame = s.frame := rfl
@[simp] theorem withTally_roving : (s.withTally v).roving = s.roving := rfl
@[simp] theorem withTally_tally : (s.withTally v).tally = v := rfl
@[simp] theorem withTally_line : (s.withTally v).line = s.line := rfl
@[simp] theorem withTally_nowMs : (s.withTally v).nowMs = s.nowMs := rfl
@[simp] theorem withTally_second : (s.withTally v).second = s.second := rfl
@[simp] theorem withTally_minute : (s.withTally v).minute = s.minute := rfl
@[simp] theorem withTally_cfg : (s.withTally v).cfg = s.cfg := rfl
@[simp] theorem withTally_active : (s.withTally v).active = s.active := rfl
@[simp] theorem withTally_listens : (s.withTally v).listens = s.listens := rfl
@[simp] theorem withTally_clockRuns : (s.withTally v).clockRuns = s.clockRuns := rfl
@[simp] theorem withTally_spindlesA : (s.withTally v).spindlesA = s.spindlesA := rfl
@[simp] theorem withTally_spindlesB : (s.withTally v).spindlesB = s.spindlesB := rfl
@[simp] theorem withTally_sideOf (n : Nat) : (s.withTally v).sideOf n = s.sideOf n := rfl
@[simp] theorem withTally_sectionOf (n : Nat) : (s.withTally v).sectionOf n = s.sectionOf n := rfl
@[simp] theorem withTally_spindle (n : Nat) : (s.withTally v).spindle n = s.spindle n := rfl
@[simp] theorem withTally_supply (n : Nat) : (s.withTally v).supply n = s.supply n := rfl
@[simp] theorem withTally_withTally (w : TallyUnit) : (s.withTally v).withTally w = s.withTally w := rfl

end

/-! ## withLine -/

section

variable (s : State) (v : LineUnit)

@[simp] theorem withLine_pending : (s.withLine v).pending = s.pending := rfl
@[simp] theorem withLine_clock : (s.withLine v).clock = s.clock := rfl
@[simp] theorem withLine_minutesBegun : (s.withLine v).minutesBegun = s.minutesBegun := rfl
@[simp] theorem withLine_freeUses : (s.withLine v).freeUses = s.freeUses := rfl
@[simp] theorem withLine_start : (s.withLine v).start = s.start := rfl
@[simp] theorem withLine_pins : (s.withLine v).pins = s.pins := rfl
@[simp] theorem withLine_chain : (s.withLine v).chain = s.chain := rfl
@[simp] theorem withLine_table : (s.withLine v).table = s.table := rfl
@[simp] theorem withLine_pieces : (s.withLine v).pieces = s.pieces := rfl
@[simp] theorem withLine_drive : (s.withLine v).drive = s.drive := rfl
@[simp] theorem withLine_frame : (s.withLine v).frame = s.frame := rfl
@[simp] theorem withLine_roving : (s.withLine v).roving = s.roving := rfl
@[simp] theorem withLine_tally : (s.withLine v).tally = s.tally := rfl
@[simp] theorem withLine_line : (s.withLine v).line = v := rfl
@[simp] theorem withLine_nowMs : (s.withLine v).nowMs = s.nowMs := rfl
@[simp] theorem withLine_second : (s.withLine v).second = s.second := rfl
@[simp] theorem withLine_minute : (s.withLine v).minute = s.minute := rfl
@[simp] theorem withLine_cfg : (s.withLine v).cfg = s.cfg := rfl
@[simp] theorem withLine_active : (s.withLine v).active = s.active := rfl
@[simp] theorem withLine_listens : (s.withLine v).listens = s.listens := rfl
@[simp] theorem withLine_clockRuns : (s.withLine v).clockRuns = s.clockRuns := rfl
@[simp] theorem withLine_spindlesA : (s.withLine v).spindlesA = s.spindlesA := rfl
@[simp] theorem withLine_spindlesB : (s.withLine v).spindlesB = s.spindlesB := rfl
@[simp] theorem withLine_sideOf (n : Nat) : (s.withLine v).sideOf n = s.sideOf n := rfl
@[simp] theorem withLine_sectionOf (n : Nat) : (s.withLine v).sectionOf n = s.sectionOf n := rfl
@[simp] theorem withLine_spindle (n : Nat) : (s.withLine v).spindle n = s.spindle n := rfl
@[simp] theorem withLine_supply (n : Nat) : (s.withLine v).supply n = s.supply n := rfl
@[simp] theorem withLine_withLine (w : LineUnit) : (s.withLine v).withLine w = s.withLine w := rfl

end

end Sys2Proof.Machine
end

