-- ==== Sys2Proof/Laws/Ops.lean ====
section
/-! SUPPORT. What the shared operations of Machine/Ops.lean do, each said once. -/

namespace Sys2Proof.Machine

/-! ## Part time and the phases -/

theorem clockRuns_of_active {s : State} (h : s.start.phase = .active) : s.clockRuns = true := by
  simp [State.clockRuns, h]

theorem clockRuns_of_listening {s : State} (h : s.start.phase = .listening) : s.clockRuns = true := by
  simp [State.clockRuns, h]

theorem listens_of_active {s : State} (h : s.start.phase = .active) : s.listens = true := by
  simp [State.listens, h]

theorem listens_iff {s : State} : s.listens = true ↔ s.start.phase = .listening ∨ s.start.phase = .active := by
  simp [State.listens]

/-- Where part time runs, it reaches the moment and never runs back. -/
theorem reach_of_runs {s : State} (t : Nat) (h : s.clockRuns = true) : s.reach t = s.withClock (max s.clock t) := by
  simp [State.reach, h]

theorem reach_of_stopped {s : State} (t : Nat) (h : s.clockRuns = false) : s.reach t = s := by
  simp [State.reach, h]

/-- `reach` changes the clock alone. -/
theorem reach_eq (s : State) (t : Nat) : ∃ c, s.reach t = s.withClock c := by
  unfold State.reach
  split
  · exact ⟨_, rfl⟩
  · exact ⟨s.clock, rfl⟩

@[simp] theorem reach_start (s : State) (t : Nat) : (s.reach t).start = s.start := by
  obtain ⟨c, h⟩ := reach_eq s t
  simp [h]

/-- A command gated by the active phase acts on the state at its moment. -/
theorem whileActive_of_active {s : State} (t : Nat) (f : State → State) (h : s.start.phase = .active) :
    s.whileActive t f = f (s.withClock (max s.clock t)) := by
  have hr := reach_of_runs t (clockRuns_of_active h)
  simp [State.whileActive, hr, State.active, h]

/-- Outside the active phase it changes the clock alone. -/
theorem whileActive_of_inactive {s : State} (t : Nat) (f : State → State) (h : s.start.phase ≠ .active) :
    s.whileActive t f = s.reach t := by
  simp [State.whileActive, State.active, h]

theorem whileListening_of_listens {s : State} (t : Nat) (f : State → State) (h : s.listens = true) :
    s.whileListening t f = f (s.withClock (max s.clock t)) := by
  have hr : s.clockRuns = true := by
    rcases listens_iff.mp h with h | h
    · exact clockRuns_of_listening h
    · exact clockRuns_of_active h
  have hl : (s.withClock (max s.clock t)).listens = true := by simpa using h
  simp [State.whileListening, reach_of_runs t hr, hl]

theorem whileListening_of_deaf {s : State} (t : Nat) (f : State → State) (h : s.listens = false) :
    s.whileListening t f = s.reach t := by
  obtain ⟨c, hc⟩ := reach_eq s t
  have hl : (s.withClock c).listens = false := by simpa using h
  simp [State.whileListening, hc, hl]

/-! ## Counts -/

theorem raise_le_top (top amount n : Nat) : raise top amount n ≤ top := Nat.min_le_left _ _

theorem le_raise {top amount n : Nat} (h : n ≤ top) : n ≤ raise top amount n := by
  unfold raise saturate
  omega

/-! ## Busy blocks (R178) -/

theorem busyOf_set (b : BusyBlocks) (k j : Block) (v : Option Nat) :
    (b.set k v).of j = if j = k then v else b.of j := by
  cases k <;> cases j <;> rfl

@[simp] theorem busyOf_set_self (b : BusyBlocks) (k : Block) (v : Option Nat) : (b.set k v).of k = v := by
  rw [busyOf_set, if_pos rfl]

@[simp] theorem makeBusy_line (s : State) (block : Block) :
    (s.makeBusy block).line = { s.line with busy := s.line.busy.set block (some s.clock) } := rfl

/-- A row that is the taking of a handed notice: everything it can do while the part is active. -/
theorem whileHanded_cases {s : State} (t : Nat) (block : Block) (f : State → State) (h : s.start.phase = .active) :
    s.whileHanded t block f = f ((s.withClock (max s.clock t)).makeBusy block) ∨
      s.whileHanded t block f = s.withClock (max s.clock t) := by
  unfold State.whileHanded
  rw [whileActive_of_active t _ h]
  split
  · exact Or.inl rfl
  · exact Or.inr rfl

/-! ## The inputs (R90, R204) -/

@[simp] theorem level_take (p : Pins) (i j : Input) (level : Bool) (at_ : Option Nat) :
    (p.take i level at_).level j = if j = i then level else p.level j := by
  cases i <;> cases j <;> rfl

@[simp] theorem changesOf_take (p : Pins) (i j : Input) (level : Bool) (at_ : Option Nat) :
    (p.take i level at_).changes.of j = if j = i then at_ else p.changes.of j := by
  cases i <;> cases j <;> rfl

@[simp] theorem level_refiltered (p : Pins) (i : Input) : p.refiltered.level i = p.level i := by
  cases i <;> rfl

@[simp] theorem changesOf_refiltered (p : Pins) (i : Input) : p.refiltered.changes.of i = none := by
  cases i <;> rfl

@[simp] theorem level_atReset (p : Pins) (asserted : Bool) (i : Input) : (p.atReset asserted).level i = p.level i := by
  cases i <;> rfl

@[simp] theorem changesOf_atReset (p : Pins) (asserted : Bool) (i : Input) :
    (p.atReset asserted).changes.of i = p.changes.of i := by
  cases i <;> rfl

@[simp] theorem reset_atReset (p : Pins) (asserted : Bool) : (p.atReset asserted).reset = asserted := rfl

@[simp] theorem reset_refiltered (p : Pins) : p.refiltered.reset = p.reset := rfl

@[simp] theorem reset_take (p : Pins) (i : Input) (level : Bool) (at_ : Option Nat) :
    (p.take i level at_).reset = p.reset := by
  cases i <;> rfl

/-- An input command: it is taken, and acted on while the part is active, or it moves the clock alone. -/
theorem onChange_cases (s : State) (t : Nat) (i : Input) (level : Bool) (act : State → State) :
    (∃ at_, s.onChange t i level act = act ((s.reach t).withPins ((s.reach t).pins.take i level at_))) ∨
      (∃ at_, s.onChange t i level act = (s.reach t).withPins ((s.reach t).pins.take i level at_)) ∨
      s.onChange t i level act = s.reach t := by
  unfold State.onChange
  simp only []
  split
  · split
    · exact Or.inl ⟨_, rfl⟩
    · exact Or.inr (Or.inl ⟨_, rfl⟩)
  · exact Or.inr (Or.inr rfl)

/-! ## Folds -/

/-- A reading that every step of a fold keeps is kept by the fold. -/
theorem foldl_keeps {σ α γ : Type} (g : σ → γ) (f : σ → α → σ) (h : ∀ s a, g (f s a) = g s) (l : List α) (s : σ) :
    g (l.foldl f s) = g s := by
  induction l generalizing s with
  | nil => rfl
  | cons a l ih => simp only [List.foldl_cons, ih, h]

/-- A property that every step of a fold keeps is kept by the fold. -/
theorem foldl_holds {σ α : Type} (P : σ → Prop) (f : σ → α → σ) (h : ∀ s a, P s → P (f s a)) (l : List α) (s : σ)
    (hs : P s) : P (l.foldl f s) := by
  induction l generalizing s with
  | nil => exact hs
  | cons a l ih => exact ih _ (h _ _ hs)

/-! ## Spindle records -/

/-- The record of a spindle after a change of one record. -/
theorem spindle_editSpindle (s : State) (n m : Nat) (f : SpindleRec → SpindleRec) :
    (s.editSpindle n f).spindle m = if m = n then (s.spindle n).map f else s.spindle m := by
  unfold State.editSpindle State.spindle
  by_cases hn : n = 0
  · by_cases hm : m = 0 <;> simp [hn, hm]
  · by_cases hm : m = 0
    · simp [hm, Ne.symm hn]
    · by_cases he : m = n
      · subst he
        simp [hn]
      · have hne : n - 1 ≠ m - 1 := by omega
        simp [hn, hm, he, hne]

/-- The number of records does not change. -/
theorem editSpindle_length (s : State) (n : Nat) (f : SpindleRec → SpindleRec) :
    (s.editSpindle n f).table.recs.length = s.table.recs.length := by
  unfold State.editSpindle
  split <;> simp

theorem spindle_editSpindles (s : State) (f : Nat → SpindleRec → SpindleRec) (n : Nat) :
    (s.editSpindles f).spindle n = (s.spindle n).map (f n) := by
  unfold State.editSpindles State.spindle
  cases n with
  | zero => rfl
  | succ k => simp

@[simp] theorem editSpindles_breakList (s : State) (f : Nat → SpindleRec → SpindleRec) :
    (s.editSpindles f).table.breakList = s.table.breakList := rfl

@[simp] theorem editSpindle_breakList (s : State) (n : Nat) (f : SpindleRec → SpindleRec) :
    (s.editSpindle n f).table.breakList = s.table.breakList := by
  unfold State.editSpindle
  split <;> simp

@[simp] theorem joinBreaks_spindle (s : State) (n m : Nat) : (s.joinBreaks n).spindle m = s.spindle m := rfl

@[simp] theorem leaveBreaks_spindle (s : State) (n m : Nat) : (s.leaveBreaks n).spindle m = s.spindle m := rfl

theorem joinBreaks_breakList (s : State) (n : Nat) :
    (s.joinBreaks n).table.breakList = s.table.breakList ++ [n] := rfl

theorem mem_leaveBreaks (s : State) (n m : Nat) :
    m ∈ (s.leaveBreaks n).table.breakList ↔ m ∈ s.table.breakList ∧ m ≠ n := by
  simp [State.leaveBreaks]

/-! ## Sorting and cutting -/

theorem insertBy_perm {α : Type} (before : α → α → Bool) (x : α) (l : List α) : (insertBy before x l).Perm (x :: l) := by
  induction l with
  | nil => exact List.Perm.refl _
  | cons y ys ih =>
    unfold insertBy
    split
    · exact List.Perm.refl _
    · exact (List.Perm.cons y ih).trans (List.Perm.swap x y ys)

/-- Sorting keeps the elements. -/
theorem sortBy_perm {α : Type} (before : α → α → Bool) (l : List α) : (sortBy before l).Perm l := by
  induction l with
  | nil => exact List.Perm.refl _
  | cons x xs ih => exact (insertBy_perm before x _).trans (List.Perm.cons x ih)

/-- Inserting keeps an order that `before` decides. -/
theorem insertBy_pairwise {α : Type} {R : α → α → Prop} {before : α → α → Bool} (trans : ∀ a b c, R a b → R b c → R a c)
    (yes : ∀ a b, before a b = true → R a b) (no : ∀ a b, before a b = false → R b a) (x : α) (l : List α)
    (h : l.Pairwise R) : (insertBy before x l).Pairwise R := by
  induction l with
  | nil => exact List.pairwise_singleton R x
  | cons y ys ih =>
    obtain ⟨hy, hys⟩ := List.pairwise_cons.mp h
    unfold insertBy
    split
    · next hb =>
      refine List.pairwise_cons.mpr ⟨fun z hz => ?_, h⟩
      rcases List.mem_cons.mp hz with rfl | hz
      · exact yes _ _ hb
      · exact trans _ _ _ (yes _ _ hb) (hy z hz)
    · next hb =>
      refine List.pairwise_cons.mpr ⟨fun z hz => ?_, ih hys⟩
      rcases List.mem_cons.mp ((insertBy_perm before x ys).mem_iff.mp hz) with rfl | hz
      · exact no _ _ (Bool.not_eq_true _ ▸ hb)
      · exact hy z hz

/-- A sorted list stands in the order that `before` decides. -/
theorem sortBy_pairwise {α : Type} {R : α → α → Prop} {before : α → α → Bool} (trans : ∀ a b c, R a b → R b c → R a c)
    (yes : ∀ a b, before a b = true → R a b) (no : ∀ a b, before a b = false → R b a) (l : List α) :
    (sortBy before l).Pairwise R := by
  induction l with
  | nil => exact List.Pairwise.nil
  | cons x xs ih => exact insertBy_pairwise trans yes no x _ ih

theorem chunks_length_le {α : Type} (size fuel : Nat) (l : List α) : ∀ c ∈ chunks size fuel l, c.length ≤ size := by
  induction fuel generalizing l with
  | zero => simp [chunks]
  | succ fuel ih =>
    cases l with
    | nil => simp [chunks]
    | cons x xs =>
      simp only [chunks, List.mem_cons]
      rintro c (rfl | h)
      · exact List.length_take_le _ _
      · exact ih _ c h

/-! ## Handing notices -/

/-- R167, R168: a queue that takes a notice stays within its places. -/
theorem joinQueue_length {n : Notice} {q q' : List Notice} (h : joinQueue n q = some q')
    (hq : q.length ≤ Config.outboundSlots) : q'.length ≤ Config.outboundSlots := by
  unfold joinQueue at h
  split at h
  · cases h
    simpa using hq
  · split at h
    · cases h
      rename_i hlt
      simp
      omega
    · cases h

/-- R167: everything handing a notice can do: it joins the queue of its class, or it is dropped and counted. -/
theorem hand_cases (s : State) (n : Notice) :
    (n.urgent = true ∧ ∃ q, joinQueue n s.line.urgent = some q ∧ s.hand n = s.withLine { s.line with urgent := q }) ∨
      (n.urgent = false ∧
        ∃ q, joinQueue n s.line.routine = some q ∧ s.hand n = s.withLine { s.line with routine := q }) ∨
      s.hand n = s.sendFailure := by
  unfold State.hand
  cases hu : n.urgent with
  | true =>
    cases hq : joinQueue n s.line.urgent with
    | none => simp
    | some q => simp
  | false =>
    cases hq : joinQueue n s.line.routine with
    | none => simp
    | some q => simp

/-- Where a notice goes depends on the line unit and the tally unit alone. -/
theorem hand_agrees {s s' : State} (n : Notice) (hl : s.line = s'.line) (ht : s.tally = s'.tally) :
    (s.hand n).line = (s'.hand n).line ∧ (s.hand n).tally = (s'.hand n).tally := by
  unfold State.hand
  rw [hl]
  split <;> split <;> simp [State.sendFailure, State.tallyFrame, hl, ht]

end Sys2Proof.Machine
end

