-- ==== Sys2Proof/Laws/Frames.lean ====
section
/-! SUPPORT. The frame of every operation: the units of the state that it leaves alone, one lemma for each operation. -/

namespace Sys2Proof.Machine

@[simp] theorem tallyFrame_frame (s : State) (f : FrameCounts → FrameCounts) :
    (s.tallyFrame f).pending = s.pending ∧ (s.tallyFrame f).clock = s.clock ∧ (s.tallyFrame f).minutesBegun =
      s.minutesBegun ∧ (s.tallyFrame f).freeUses = s.freeUses ∧ (s.tallyFrame f).start = s.start ∧ (s.tallyFrame
      f).pins = s.pins ∧ (s.tallyFrame f).chain = s.chain ∧ (s.tallyFrame f).table = s.table ∧ (s.tallyFrame
      f).pieces = s.pieces ∧ (s.tallyFrame f).drive = s.drive ∧ (s.tallyFrame f).frame = s.frame ∧ (s.tallyFrame
      f).roving = s.roving ∧ (s.tallyFrame f).line = s.line := by
  simp only [State.tallyFrame]
  all_goals simp

@[simp] theorem tallySide_frame (s : State) (side : Side) (f : SideCounts → SideCounts) :
    (s.tallySide side f).pending = s.pending ∧ (s.tallySide side f).clock = s.clock ∧ (s.tallySide side
      f).minutesBegun = s.minutesBegun ∧ (s.tallySide side f).freeUses = s.freeUses ∧ (s.tallySide side f).start
      = s.start ∧ (s.tallySide side f).pins = s.pins ∧ (s.tallySide side f).chain = s.chain ∧ (s.tallySide side
      f).table = s.table ∧ (s.tallySide side f).pieces = s.pieces ∧ (s.tallySide side f).drive = s.drive ∧
      (s.tallySide side f).frame = s.frame ∧ (s.tallySide side f).roving = s.roving ∧ (s.tallySide side f).line
      = s.line := by
  simp only [State.tallySide]; repeat' split
  all_goals simp

@[simp] theorem sendFailure_frame (s : State) :
    (s.sendFailure).pending = s.pending ∧ (s.sendFailure).clock = s.clock ∧ (s.sendFailure).minutesBegun =
      s.minutesBegun ∧ (s.sendFailure).freeUses = s.freeUses ∧ (s.sendFailure).start = s.start ∧
      (s.sendFailure).pins = s.pins ∧ (s.sendFailure).chain = s.chain ∧ (s.sendFailure).table = s.table ∧
      (s.sendFailure).pieces = s.pieces ∧ (s.sendFailure).drive = s.drive ∧ (s.sendFailure).frame = s.frame ∧
      (s.sendFailure).roving = s.roving ∧ (s.sendFailure).line = s.line := by
  simp only [State.sendFailure]
  all_goals simp

@[simp] theorem hand_frame (s : State) (n : Notice) :
    (s.hand n).pending = s.pending ∧ (s.hand n).clock = s.clock ∧ (s.hand n).minutesBegun = s.minutesBegun ∧
      (s.hand n).freeUses = s.freeUses ∧ (s.hand n).start = s.start ∧ (s.hand n).pins = s.pins ∧ (s.hand
      n).chain = s.chain ∧ (s.hand n).table = s.table ∧ (s.hand n).pieces = s.pieces ∧ (s.hand n).drive =
      s.drive ∧ (s.hand n).frame = s.frame ∧ (s.hand n).roving = s.roving := by
  simp only [State.hand]; repeat' split
  all_goals simp

@[simp] theorem editSpindle_frame (s : State) (n : Nat) (f : SpindleRec → SpindleRec) :
    (s.editSpindle n f).pending = s.pending ∧ (s.editSpindle n f).clock = s.clock ∧ (s.editSpindle n
      f).minutesBegun = s.minutesBegun ∧ (s.editSpindle n f).freeUses = s.freeUses ∧ (s.editSpindle n f).start =
      s.start ∧ (s.editSpindle n f).pins = s.pins ∧ (s.editSpindle n f).chain = s.chain ∧ (s.editSpindle n
      f).pieces = s.pieces ∧ (s.editSpindle n f).drive = s.drive ∧ (s.editSpindle n f).frame = s.frame ∧
      (s.editSpindle n f).roving = s.roving ∧ (s.editSpindle n f).tally = s.tally ∧ (s.editSpindle n f).line =
      s.line := by
  simp only [State.editSpindle]; repeat' split
  all_goals simp

@[simp] theorem editSpindles_frame (s : State) (f : Nat → SpindleRec → SpindleRec) :
    (s.editSpindles f).pending = s.pending ∧ (s.editSpindles f).clock = s.clock ∧ (s.editSpindles
      f).minutesBegun = s.minutesBegun ∧ (s.editSpindles f).freeUses = s.freeUses ∧ (s.editSpindles f).start =
      s.start ∧ (s.editSpindles f).pins = s.pins ∧ (s.editSpindles f).chain = s.chain ∧ (s.editSpindles
      f).pieces = s.pieces ∧ (s.editSpindles f).drive = s.drive ∧ (s.editSpindles f).frame = s.frame ∧
      (s.editSpindles f).roving = s.roving ∧ (s.editSpindles f).tally = s.tally ∧ (s.editSpindles f).line =
      s.line := by
  simp only [State.editSpindles]
  all_goals simp

@[simp] theorem joinBreaks_frame (s : State) (n : Nat) :
    (s.joinBreaks n).pending = s.pending ∧ (s.joinBreaks n).clock = s.clock ∧ (s.joinBreaks n).minutesBegun =
      s.minutesBegun ∧ (s.joinBreaks n).freeUses = s.freeUses ∧ (s.joinBreaks n).start = s.start ∧ (s.joinBreaks
      n).pins = s.pins ∧ (s.joinBreaks n).chain = s.chain ∧ (s.joinBreaks n).pieces = s.pieces ∧ (s.joinBreaks
      n).drive = s.drive ∧ (s.joinBreaks n).frame = s.frame ∧ (s.joinBreaks n).roving = s.roving ∧ (s.joinBreaks
      n).tally = s.tally ∧ (s.joinBreaks n).line = s.line := by
  simp only [State.joinBreaks]
  all_goals simp

@[simp] theorem leaveBreaks_frame (s : State) (n : Nat) :
    (s.leaveBreaks n).pending = s.pending ∧ (s.leaveBreaks n).clock = s.clock ∧ (s.leaveBreaks n).minutesBegun =
      s.minutesBegun ∧ (s.leaveBreaks n).freeUses = s.freeUses ∧ (s.leaveBreaks n).start = s.start ∧
      (s.leaveBreaks n).pins = s.pins ∧ (s.leaveBreaks n).chain = s.chain ∧ (s.leaveBreaks n).pieces = s.pieces
      ∧ (s.leaveBreaks n).drive = s.drive ∧ (s.leaveBreaks n).frame = s.frame ∧ (s.leaveBreaks n).roving =
      s.roving ∧ (s.leaveBreaks n).tally = s.tally ∧ (s.leaveBreaks n).line = s.line := by
  simp only [State.leaveBreaks]
  all_goals simp

@[simp] theorem editSupplies_frame (s : State) (f : SupplyRec → SupplyRec) :
    (s.editSupplies f).pending = s.pending ∧ (s.editSupplies f).clock = s.clock ∧ (s.editSupplies
      f).minutesBegun = s.minutesBegun ∧ (s.editSupplies f).freeUses = s.freeUses ∧ (s.editSupplies f).start =
      s.start ∧ (s.editSupplies f).pins = s.pins ∧ (s.editSupplies f).chain = s.chain ∧ (s.editSupplies f).table
      = s.table ∧ (s.editSupplies f).pieces = s.pieces ∧ (s.editSupplies f).drive = s.drive ∧ (s.editSupplies
      f).frame = s.frame ∧ (s.editSupplies f).tally = s.tally ∧ (s.editSupplies f).line = s.line := by
  simp only [State.editSupplies]
  all_goals simp

@[simp] theorem editSupply_frame (s : State) (creel : Nat) (f : SupplyRec → SupplyRec) :
    (s.editSupply creel f).pending = s.pending ∧ (s.editSupply creel f).clock = s.clock ∧ (s.editSupply creel
      f).minutesBegun = s.minutesBegun ∧ (s.editSupply creel f).freeUses = s.freeUses ∧ (s.editSupply creel
      f).start = s.start ∧ (s.editSupply creel f).pins = s.pins ∧ (s.editSupply creel f).chain = s.chain ∧
      (s.editSupply creel f).table = s.table ∧ (s.editSupply creel f).pieces = s.pieces ∧ (s.editSupply creel
      f).drive = s.drive ∧ (s.editSupply creel f).frame = s.frame ∧ (s.editSupply creel f).tally = s.tally ∧
      (s.editSupply creel f).line = s.line := by
  simp only [State.editSupply]
  all_goals simp

@[simp] theorem withCalls_frame (s : State) (calls : List Call) :
    (s.withCalls calls).pending = s.pending ∧ (s.withCalls calls).clock = s.clock ∧ (s.withCalls
      calls).minutesBegun = s.minutesBegun ∧ (s.withCalls calls).freeUses = s.freeUses ∧ (s.withCalls
      calls).start = s.start ∧ (s.withCalls calls).pins = s.pins ∧ (s.withCalls calls).chain = s.chain ∧
      (s.withCalls calls).table = s.table ∧ (s.withCalls calls).drive = s.drive ∧ (s.withCalls calls).frame =
      s.frame ∧ (s.withCalls calls).roving = s.roving ∧ (s.withCalls calls).tally = s.tally ∧ (s.withCalls
      calls).line = s.line := by
  simp only [State.withCalls]
  all_goals simp

@[simp] theorem editCall_frame (s : State) (n : Nat) (f : Call → Call) :
    (s.editCall n f).pending = s.pending ∧ (s.editCall n f).clock = s.clock ∧ (s.editCall n f).minutesBegun =
      s.minutesBegun ∧ (s.editCall n f).freeUses = s.freeUses ∧ (s.editCall n f).start = s.start ∧ (s.editCall n
      f).pins = s.pins ∧ (s.editCall n f).chain = s.chain ∧ (s.editCall n f).table = s.table ∧ (s.editCall n
      f).drive = s.drive ∧ (s.editCall n f).frame = s.frame ∧ (s.editCall n f).roving = s.roving ∧ (s.editCall n
      f).tally = s.tally ∧ (s.editCall n f).line = s.line := by
  simp only [State.editCall]
  all_goals simp

@[simp] theorem freeCall_frame (s : State) (n : Nat) :
    (s.freeCall n).pending = s.pending ∧ (s.freeCall n).clock = s.clock ∧ (s.freeCall n).minutesBegun =
      s.minutesBegun ∧ (s.freeCall n).freeUses = s.freeUses ∧ (s.freeCall n).start = s.start ∧ (s.freeCall
      n).pins = s.pins ∧ (s.freeCall n).chain = s.chain ∧ (s.freeCall n).table = s.table ∧ (s.freeCall n).drive
      = s.drive ∧ (s.freeCall n).frame = s.frame ∧ (s.freeCall n).roving = s.roving ∧ (s.freeCall n).tally =
      s.tally ∧ (s.freeCall n).line = s.line := by
  simp only [State.freeCall]
  all_goals simp

@[simp] theorem openCall_frame (s : State) (n : Nat) :
    (s.openCall n).pending = s.pending ∧ (s.openCall n).clock = s.clock ∧ (s.openCall n).minutesBegun =
      s.minutesBegun ∧ (s.openCall n).freeUses = s.freeUses ∧ (s.openCall n).start = s.start ∧ (s.openCall
      n).pins = s.pins ∧ (s.openCall n).chain = s.chain ∧ (s.openCall n).drive = s.drive ∧ (s.openCall n).frame
      = s.frame ∧ (s.openCall n).roving = s.roving := by
  simp only [State.openCall]
  all_goals simp

@[simp] theorem walkAt_frame (s : State) (n : Nat) :
    (s.walkAt n).pending = s.pending ∧ (s.walkAt n).clock = s.clock ∧ (s.walkAt n).minutesBegun = s.minutesBegun
      ∧ (s.walkAt n).freeUses = s.freeUses ∧ (s.walkAt n).start = s.start ∧ (s.walkAt n).pins = s.pins ∧
      (s.walkAt n).chain = s.chain ∧ (s.walkAt n).drive = s.drive ∧ (s.walkAt n).frame = s.frame ∧ (s.walkAt
      n).roving = s.roving := by
  simp only [State.walkAt]; repeat' split
  all_goals simp

@[simp] theorem walk_frame (s : State) :
    (s.walk).pending = s.pending ∧ (s.walk).clock = s.clock ∧ (s.walk).minutesBegun = s.minutesBegun ∧
      (s.walk).freeUses = s.freeUses ∧ (s.walk).start = s.start ∧ (s.walk).pins = s.pins ∧ (s.walk).chain =
      s.chain ∧ (s.walk).drive = s.drive ∧ (s.walk).frame = s.frame ∧ (s.walk).roving = s.roving := by
  unfold State.walk
  split
  · refine ⟨?_, ?_, ?_, ?_, ?_, ?_, ?_, ?_, ?_, ?_⟩ <;> exact foldl_keeps _ State.walkAt (by simp) _ _
  · simp

@[simp] theorem endCall_frame (s : State) (reason : CloseReason) (c : Call) :
    (s.endCall reason c).pending = s.pending ∧ (s.endCall reason c).clock = s.clock ∧ (s.endCall reason
      c).minutesBegun = s.minutesBegun ∧ (s.endCall reason c).freeUses = s.freeUses ∧ (s.endCall reason c).start
      = s.start ∧ (s.endCall reason c).pins = s.pins ∧ (s.endCall reason c).chain = s.chain ∧ (s.endCall reason
      c).table = s.table ∧ (s.endCall reason c).drive = s.drive ∧ (s.endCall reason c).frame = s.frame ∧
      (s.endCall reason c).roving = s.roving := by
  simp only [State.endCall]
  all_goals simp

@[simp] theorem releaseSpindle_frame (s : State) (n : Nat) (b : Option Nat) :
    (s.releaseSpindle n b).pending = s.pending ∧ (s.releaseSpindle n b).clock = s.clock ∧ (s.releaseSpindle n
      b).minutesBegun = s.minutesBegun ∧ (s.releaseSpindle n b).freeUses = s.freeUses ∧ (s.releaseSpindle n
      b).start = s.start ∧ (s.releaseSpindle n b).pins = s.pins ∧ (s.releaseSpindle n b).chain = s.chain ∧
      (s.releaseSpindle n b).pieces = s.pieces ∧ (s.releaseSpindle n b).drive = s.drive ∧ (s.releaseSpindle n
      b).frame = s.frame ∧ (s.releaseSpindle n b).roving = s.roving ∧ (s.releaseSpindle n b).tally = s.tally ∧
      (s.releaseSpindle n b).line = s.line := by
  simp only [State.releaseSpindle]
  all_goals simp

@[simp] theorem endCalls_frame (s : State) (reason : CloseReason) (calls : List Call) :
    (s.endCalls reason calls).pending = s.pending ∧ (s.endCalls reason calls).clock = s.clock ∧ (s.endCalls
      reason calls).minutesBegun = s.minutesBegun ∧ (s.endCalls reason calls).start = s.start ∧ (s.endCalls
      reason calls).pins = s.pins ∧ (s.endCalls reason calls).chain = s.chain ∧ (s.endCalls reason calls).table
      = s.table ∧ (s.endCalls reason calls).drive = s.drive ∧ (s.endCalls reason calls).frame = s.frame ∧
      (s.endCalls reason calls).roving = s.roving := by
  have h : ∀ (l : List Call) (s : State), (l.foldl (fun s c => s.endCall reason c) s).pending = s.pending ∧ (l.foldl (fun s c => s.endCall reason c) s).clock = s.clock ∧ (l.foldl (fun s c => s.endCall reason c) s).minutesBegun = s.minutesBegun ∧ (l.foldl (fun s c => s.endCall reason c) s).start = s.start ∧ (l.foldl (fun s c => s.endCall reason c) s).pins = s.pins ∧ (l.foldl (fun s c => s.endCall reason c) s).chain = s.chain ∧ (l.foldl (fun s c => s.endCall reason c) s).table = s.table ∧ (l.foldl (fun s c => s.endCall reason c) s).drive = s.drive ∧ (l.foldl (fun s c => s.endCall reason c) s).frame = s.frame ∧ (l.foldl (fun s c => s.endCall reason c) s).roving = s.roving := by
    intro l s
    refine ⟨?_, ?_, ?_, ?_, ?_, ?_, ?_, ?_, ?_, ?_⟩ <;> exact foldl_keeps _ _ (by simp) _ _
  simp [State.endCalls, h]

@[simp] theorem cancelAll_frame (s : State) :
    (s.cancelAll).pending = s.pending ∧ (s.cancelAll).clock = s.clock ∧ (s.cancelAll).minutesBegun =
      s.minutesBegun ∧ (s.cancelAll).start = s.start ∧ (s.cancelAll).pins = s.pins ∧ (s.cancelAll).chain =
      s.chain ∧ (s.cancelAll).drive = s.drive ∧ (s.cancelAll).frame = s.frame ∧ (s.cancelAll).roving = s.roving := by
  simp only [State.cancelAll]
  refine ⟨?_, ?_, ?_, ?_, ?_, ?_, ?_, ?_, ?_⟩ <;> exact (foldl_keeps _ _ (by simp) _ _).trans (by simp)

@[simp] theorem failedAttempt_frame (s : State) (n : Nat) :
    (s.failedAttempt n).pending = s.pending ∧ (s.failedAttempt n).clock = s.clock ∧ (s.failedAttempt
      n).minutesBegun = s.minutesBegun ∧ (s.failedAttempt n).freeUses = s.freeUses ∧ (s.failedAttempt n).start =
      s.start ∧ (s.failedAttempt n).pins = s.pins ∧ (s.failedAttempt n).chain = s.chain ∧ (s.failedAttempt
      n).pieces = s.pieces ∧ (s.failedAttempt n).drive = s.drive ∧ (s.failedAttempt n).frame = s.frame ∧
      (s.failedAttempt n).roving = s.roving ∧ (s.failedAttempt n).line = s.line := by
  simp only [State.failedAttempt]; repeat' split
  all_goals simp

@[simp] theorem confirmCall_frame (s : State) (n : Nat) :
    (s.confirmCall n).pending = s.pending ∧ (s.confirmCall n).clock = s.clock ∧ (s.confirmCall n).minutesBegun =
      s.minutesBegun ∧ (s.confirmCall n).freeUses = s.freeUses ∧ (s.confirmCall n).start = s.start ∧
      (s.confirmCall n).pins = s.pins ∧ (s.confirmCall n).chain = s.chain ∧ (s.confirmCall n).drive = s.drive ∧
      (s.confirmCall n).frame = s.frame ∧ (s.confirmCall n).roving = s.roving := by
  simp only [State.confirmCall]; repeat' split
  all_goals simp

@[simp] theorem addHeldSum_frame (s : State) (side : Side) (n : Nat) :
    (s.addHeldSum side n).pending = s.pending ∧ (s.addHeldSum side n).clock = s.clock ∧ (s.addHeldSum side
      n).minutesBegun = s.minutesBegun ∧ (s.addHeldSum side n).freeUses = s.freeUses ∧ (s.addHeldSum side
      n).start = s.start ∧ (s.addHeldSum side n).pins = s.pins ∧ (s.addHeldSum side n).chain = s.chain ∧
      (s.addHeldSum side n).pieces = s.pieces ∧ (s.addHeldSum side n).drive = s.drive ∧ (s.addHeldSum side
      n).frame = s.frame ∧ (s.addHeldSum side n).roving = s.roving ∧ (s.addHeldSum side n).tally = s.tally ∧
      (s.addHeldSum side n).line = s.line := by
  simp only [State.addHeldSum]; repeat' split
  all_goals simp

@[simp] theorem sendDown_frame (s : State) (n : Nat) (f : SpindleRec → SpindleRec) :
    (s.sendDown n f).pending = s.pending ∧ (s.sendDown n f).clock = s.clock ∧ (s.sendDown n f).minutesBegun =
      s.minutesBegun ∧ (s.sendDown n f).freeUses = s.freeUses ∧ (s.sendDown n f).start = s.start ∧ (s.sendDown n
      f).pins = s.pins ∧ (s.sendDown n f).chain = s.chain ∧ (s.sendDown n f).pieces = s.pieces ∧ (s.sendDown n
      f).drive = s.drive ∧ (s.sendDown n f).frame = s.frame ∧ (s.sendDown n f).roving = s.roving ∧ (s.sendDown n
      f).tally = s.tally ∧ (s.sendDown n f).line = s.line := by
  simp only [State.sendDown]
  all_goals simp

@[simp] theorem runOutSpindles_frame (s : State) (creel : Nat) :
    (s.runOutSpindles creel).pending = s.pending ∧ (s.runOutSpindles creel).clock = s.clock ∧ (s.runOutSpindles
      creel).minutesBegun = s.minutesBegun ∧ (s.runOutSpindles creel).start = s.start ∧ (s.runOutSpindles
      creel).pins = s.pins ∧ (s.runOutSpindles creel).chain = s.chain ∧ (s.runOutSpindles creel).drive = s.drive
      ∧ (s.runOutSpindles creel).frame = s.frame ∧ (s.runOutSpindles creel).roving = s.roving := by
  simp only [State.runOutSpindles]; repeat' split
  all_goals simp

@[simp] theorem laySpindles_frame (s : State) (creel : Nat) :
    (s.laySpindles creel).pending = s.pending ∧ (s.laySpindles creel).clock = s.clock ∧ (s.laySpindles
      creel).minutesBegun = s.minutesBegun ∧ (s.laySpindles creel).freeUses = s.freeUses ∧ (s.laySpindles
      creel).start = s.start ∧ (s.laySpindles creel).pins = s.pins ∧ (s.laySpindles creel).chain = s.chain ∧
      (s.laySpindles creel).pieces = s.pieces ∧ (s.laySpindles creel).drive = s.drive ∧ (s.laySpindles
      creel).frame = s.frame ∧ (s.laySpindles creel).roving = s.roving ∧ (s.laySpindles creel).tally = s.tally ∧
      (s.laySpindles creel).line = s.line := by
  simp only [State.laySpindles]
  all_goals simp

@[simp] theorem holdSpindle_frame (s : State) (n : Nat) :
    (s.holdSpindle n).pending = s.pending ∧ (s.holdSpindle n).clock = s.clock ∧ (s.holdSpindle n).minutesBegun =
      s.minutesBegun ∧ (s.holdSpindle n).freeUses = s.freeUses ∧ (s.holdSpindle n).start = s.start ∧
      (s.holdSpindle n).pins = s.pins ∧ (s.holdSpindle n).chain = s.chain ∧ (s.holdSpindle n).drive = s.drive ∧
      (s.holdSpindle n).frame = s.frame ∧ (s.holdSpindle n).roving = s.roving := by
  simp only [State.holdSpindle]; repeat' split
  all_goals simp

@[simp] theorem blindModule_frame (s : State) (side : Side) (m : Nat) :
    (s.blindModule side m).pending = s.pending ∧ (s.blindModule side m).clock = s.clock ∧ (s.blindModule side
      m).minutesBegun = s.minutesBegun ∧ (s.blindModule side m).freeUses = s.freeUses ∧ (s.blindModule side
      m).start = s.start ∧ (s.blindModule side m).pins = s.pins ∧ (s.blindModule side m).chain = s.chain ∧
      (s.blindModule side m).drive = s.drive ∧ (s.blindModule side m).frame = s.frame ∧ (s.blindModule side
      m).roving = s.roving := by
  have h : ∀ l : List Nat, (l.foldl State.holdSpindle s).pending = s.pending ∧ (l.foldl State.holdSpindle s).clock = s.clock ∧ (l.foldl State.holdSpindle s).minutesBegun = s.minutesBegun ∧ (l.foldl State.holdSpindle s).freeUses = s.freeUses ∧ (l.foldl State.holdSpindle s).start = s.start ∧ (l.foldl State.holdSpindle s).pins = s.pins ∧ (l.foldl State.holdSpindle s).chain = s.chain ∧ (l.foldl State.holdSpindle s).drive = s.drive ∧ (l.foldl State.holdSpindle s).frame = s.frame ∧ (l.foldl State.holdSpindle s).roving = s.roving := by
    intro l
    refine ⟨?_, ?_, ?_, ?_, ?_, ?_, ?_, ?_, ?_, ?_⟩ <;> exact foldl_keeps _ _ (by simp) _ _
  simp only [State.blindModule]
  split <;> simp [h]

@[simp] theorem recoverSpindle_frame (s : State) (n : Nat) (yarn : Bool) :
    (s.recoverSpindle n yarn).pending = s.pending ∧ (s.recoverSpindle n yarn).clock = s.clock ∧
      (s.recoverSpindle n yarn).minutesBegun = s.minutesBegun ∧ (s.recoverSpindle n yarn).freeUses = s.freeUses
      ∧ (s.recoverSpindle n yarn).start = s.start ∧ (s.recoverSpindle n yarn).pins = s.pins ∧ (s.recoverSpindle
      n yarn).chain = s.chain ∧ (s.recoverSpindle n yarn).pieces = s.pieces ∧ (s.recoverSpindle n yarn).drive =
      s.drive ∧ (s.recoverSpindle n yarn).frame = s.frame ∧ (s.recoverSpindle n yarn).roving = s.roving ∧
      (s.recoverSpindle n yarn).tally = s.tally ∧ (s.recoverSpindle n yarn).line = s.line := by
  simp only [State.recoverSpindle]; repeat' split
  all_goals simp

@[simp] theorem recoverModule_frame (s : State) (side : Side) (m : Nat) (yarn : List Bool) :
    (s.recoverModule side m yarn).pending = s.pending ∧ (s.recoverModule side m yarn).clock = s.clock ∧
      (s.recoverModule side m yarn).minutesBegun = s.minutesBegun ∧ (s.recoverModule side m yarn).freeUses =
      s.freeUses ∧ (s.recoverModule side m yarn).start = s.start ∧ (s.recoverModule side m yarn).pins = s.pins ∧
      (s.recoverModule side m yarn).chain = s.chain ∧ (s.recoverModule side m yarn).pieces = s.pieces ∧
      (s.recoverModule side m yarn).drive = s.drive ∧ (s.recoverModule side m yarn).frame = s.frame ∧
      (s.recoverModule side m yarn).roving = s.roving ∧ (s.recoverModule side m yarn).tally = s.tally ∧
      (s.recoverModule side m yarn).line = s.line := by
  simp only [State.recoverModule]
  refine ⟨?_, ?_, ?_, ?_, ?_, ?_, ?_, ?_, ?_, ?_, ?_, ?_, ?_⟩ <;> exact foldl_keeps _ _ (by simp) _ _

@[simp] theorem rebuildSpindles_frame (s : State) :
    (s.rebuildSpindles).pending = s.pending ∧ (s.rebuildSpindles).clock = s.clock ∧
      (s.rebuildSpindles).minutesBegun = s.minutesBegun ∧ (s.rebuildSpindles).freeUses = s.freeUses ∧
      (s.rebuildSpindles).start = s.start ∧ (s.rebuildSpindles).pins = s.pins ∧ (s.rebuildSpindles).chain =
      s.chain ∧ (s.rebuildSpindles).pieces = s.pieces ∧ (s.rebuildSpindles).drive = s.drive ∧
      (s.rebuildSpindles).frame = s.frame ∧ (s.rebuildSpindles).roving = s.roving ∧ (s.rebuildSpindles).tally =
      s.tally ∧ (s.rebuildSpindles).line = s.line := by
  simp only [State.rebuildSpindles]
  all_goals simp

@[simp] theorem clearSpindle_frame (s : State) (n : Nat) :
    (s.clearSpindle n).pending = s.pending ∧ (s.clearSpindle n).clock = s.clock ∧ (s.clearSpindle
      n).minutesBegun = s.minutesBegun ∧ (s.clearSpindle n).freeUses = s.freeUses ∧ (s.clearSpindle n).start =
      s.start ∧ (s.clearSpindle n).pins = s.pins ∧ (s.clearSpindle n).chain = s.chain ∧ (s.clearSpindle
      n).pieces = s.pieces ∧ (s.clearSpindle n).drive = s.drive ∧ (s.clearSpindle n).frame = s.frame ∧
      (s.clearSpindle n).roving = s.roving ∧ (s.clearSpindle n).tally = s.tally ∧ (s.clearSpindle n).line =
      s.line := by
  simp only [State.clearSpindle]; repeat' split
  all_goals simp

@[simp] theorem clearSpindles_frame (s : State) (l : List Nat) :
    (s.clearSpindles l).pending = s.pending ∧ (s.clearSpindles l).clock = s.clock ∧ (s.clearSpindles
      l).minutesBegun = s.minutesBegun ∧ (s.clearSpindles l).freeUses = s.freeUses ∧ (s.clearSpindles l).start =
      s.start ∧ (s.clearSpindles l).pins = s.pins ∧ (s.clearSpindles l).chain = s.chain ∧ (s.clearSpindles
      l).pieces = s.pieces ∧ (s.clearSpindles l).drive = s.drive ∧ (s.clearSpindles l).frame = s.frame ∧
      (s.clearSpindles l).roving = s.roving ∧ (s.clearSpindles l).tally = s.tally ∧ (s.clearSpindles l).line =
      s.line := by
  simp only [State.clearSpindles]
  refine ⟨?_, ?_, ?_, ?_, ?_, ?_, ?_, ?_, ?_, ?_, ?_, ?_, ?_⟩ <;> exact foldl_keeps _ _ (by simp) _ _

@[simp] theorem unlockSpindles_frame (s : State) (n : Nat) :
    (s.unlockSpindles n).pending = s.pending ∧ (s.unlockSpindles n).clock = s.clock ∧ (s.unlockSpindles
      n).minutesBegun = s.minutesBegun ∧ (s.unlockSpindles n).freeUses = s.freeUses ∧ (s.unlockSpindles n).start
      = s.start ∧ (s.unlockSpindles n).pins = s.pins ∧ (s.unlockSpindles n).chain = s.chain ∧ (s.unlockSpindles
      n).pieces = s.pieces ∧ (s.unlockSpindles n).drive = s.drive ∧ (s.unlockSpindles n).frame = s.frame ∧
      (s.unlockSpindles n).roving = s.roving ∧ (s.unlockSpindles n).tally = s.tally ∧ (s.unlockSpindles n).line
      = s.line := by
  simp only [State.unlockSpindles]; repeat' split
  all_goals simp

@[simp] theorem handAsk_frame (s : State) (recs : List SupplyRec) :
    (s.handAsk recs).pending = s.pending ∧ (s.handAsk recs).clock = s.clock ∧ (s.handAsk recs).minutesBegun =
      s.minutesBegun ∧ (s.handAsk recs).freeUses = s.freeUses ∧ (s.handAsk recs).start = s.start ∧ (s.handAsk
      recs).pins = s.pins ∧ (s.handAsk recs).chain = s.chain ∧ (s.handAsk recs).table = s.table ∧ (s.handAsk
      recs).pieces = s.pieces ∧ (s.handAsk recs).drive = s.drive ∧ (s.handAsk recs).frame = s.frame := by
  simp only [State.handAsk]
  all_goals simp

@[simp] theorem handAsks_frame (s : State) (recs : List SupplyRec) :
    (s.handAsks recs).pending = s.pending ∧ (s.handAsks recs).clock = s.clock ∧ (s.handAsks recs).minutesBegun =
      s.minutesBegun ∧ (s.handAsks recs).freeUses = s.freeUses ∧ (s.handAsks recs).start = s.start ∧ (s.handAsks
      recs).pins = s.pins ∧ (s.handAsks recs).chain = s.chain ∧ (s.handAsks recs).table = s.table ∧ (s.handAsks
      recs).pieces = s.pieces ∧ (s.handAsks recs).drive = s.drive ∧ (s.handAsks recs).frame = s.frame := by
  simp only [State.handAsks]
  refine ⟨?_, ?_, ?_, ?_, ?_, ?_, ?_, ?_, ?_, ?_, ?_⟩ <;> exact foldl_keeps _ _ (by simp) _ _

@[simp] theorem batchRunsOut_frame (s : State) :
    (s.batchRunsOut).pending = s.pending ∧ (s.batchRunsOut).clock = s.clock ∧ (s.batchRunsOut).minutesBegun =
      s.minutesBegun ∧ (s.batchRunsOut).freeUses = s.freeUses ∧ (s.batchRunsOut).start = s.start ∧
      (s.batchRunsOut).pins = s.pins ∧ (s.batchRunsOut).chain = s.chain ∧ (s.batchRunsOut).table = s.table ∧
      (s.batchRunsOut).pieces = s.pieces ∧ (s.batchRunsOut).drive = s.drive ∧ (s.batchRunsOut).frame = s.frame := by
  simp only [State.batchRunsOut]; repeat' split
  all_goals simp

@[simp] theorem startBatch_frame (s : State) :
    (s.startBatch).pending = s.pending ∧ (s.startBatch).clock = s.clock ∧ (s.startBatch).minutesBegun =
      s.minutesBegun ∧ (s.startBatch).freeUses = s.freeUses ∧ (s.startBatch).start = s.start ∧
      (s.startBatch).pins = s.pins ∧ (s.startBatch).chain = s.chain ∧ (s.startBatch).table = s.table ∧
      (s.startBatch).pieces = s.pieces ∧ (s.startBatch).drive = s.drive ∧ (s.startBatch).frame = s.frame := by
  simp only [State.startBatch]; repeat' split
  all_goals simp

@[simp] theorem becomeRunOut_frame (s : State) (creel : Nat) :
    (s.becomeRunOut creel).pending = s.pending ∧ (s.becomeRunOut creel).clock = s.clock ∧ (s.becomeRunOut
      creel).minutesBegun = s.minutesBegun ∧ (s.becomeRunOut creel).start = s.start ∧ (s.becomeRunOut
      creel).pins = s.pins ∧ (s.becomeRunOut creel).chain = s.chain ∧ (s.becomeRunOut creel).drive = s.drive ∧
      (s.becomeRunOut creel).frame = s.frame := by
  simp only [State.becomeRunOut]
  all_goals simp

@[simp] theorem askRunOut_frame (s : State) (creels : List Nat) :
    (s.askRunOut creels).pending = s.pending ∧ (s.askRunOut creels).clock = s.clock ∧ (s.askRunOut
      creels).minutesBegun = s.minutesBegun ∧ (s.askRunOut creels).freeUses = s.freeUses ∧ (s.askRunOut
      creels).start = s.start ∧ (s.askRunOut creels).pins = s.pins ∧ (s.askRunOut creels).chain = s.chain ∧
      (s.askRunOut creels).table = s.table ∧ (s.askRunOut creels).pieces = s.pieces ∧ (s.askRunOut creels).drive
      = s.drive ∧ (s.askRunOut creels).frame = s.frame := by
  simp only [State.askRunOut]
  all_goals simp

@[simp] theorem recordBreak_frame (s : State) (creel : Nat) :
    (s.recordBreak creel).pending = s.pending ∧ (s.recordBreak creel).clock = s.clock ∧ (s.recordBreak
      creel).minutesBegun = s.minutesBegun ∧ (s.recordBreak creel).start = s.start ∧ (s.recordBreak creel).pins
      = s.pins ∧ (s.recordBreak creel).chain = s.chain ∧ (s.recordBreak creel).drive = s.drive ∧ (s.recordBreak
      creel).frame = s.frame := by
  simp only [State.recordBreak]; repeat' split
  all_goals simp

@[simp] theorem rovingTick_frame (s : State) :
    (s.rovingTick).pending = s.pending ∧ (s.rovingTick).clock = s.clock ∧ (s.rovingTick).minutesBegun =
      s.minutesBegun ∧ (s.rovingTick).start = s.start ∧ (s.rovingTick).pins = s.pins ∧ (s.rovingTick).chain =
      s.chain ∧ (s.rovingTick).drive = s.drive ∧ (s.rovingTick).frame = s.frame := by
  have h : ∀ (l : List SupplyRec) (s : State), (l.foldl (fun s r => s.becomeRunOut r.creel) s).pending = s.pending ∧ (l.foldl (fun s r => s.becomeRunOut r.creel) s).clock = s.clock ∧ (l.foldl (fun s r => s.becomeRunOut r.creel) s).minutesBegun = s.minutesBegun ∧ (l.foldl (fun s r => s.becomeRunOut r.creel) s).start = s.start ∧ (l.foldl (fun s r => s.becomeRunOut r.creel) s).pins = s.pins ∧ (l.foldl (fun s r => s.becomeRunOut r.creel) s).chain = s.chain ∧ (l.foldl (fun s r => s.becomeRunOut r.creel) s).drive = s.drive ∧ (l.foldl (fun s r => s.becomeRunOut r.creel) s).frame = s.frame := by
    intro l s
    refine ⟨?_, ?_, ?_, ?_, ?_, ?_, ?_, ?_⟩ <;> exact foldl_keeps _ _ (by simp) _ _
  simp only [State.rovingTick]
  split <;> simp [h]

@[simp] theorem railSilent_frame (s : State) :
    (s.railSilent).pending = s.pending ∧ (s.railSilent).clock = s.clock ∧ (s.railSilent).minutesBegun =
      s.minutesBegun ∧ (s.railSilent).freeUses = s.freeUses ∧ (s.railSilent).start = s.start ∧
      (s.railSilent).pins = s.pins ∧ (s.railSilent).chain = s.chain ∧ (s.railSilent).table = s.table ∧
      (s.railSilent).pieces = s.pieces ∧ (s.railSilent).drive = s.drive ∧ (s.railSilent).frame = s.frame ∧
      (s.railSilent).roving = s.roving ∧ (s.railSilent).line = s.line := by
  simp only [State.railSilent]
  all_goals simp

@[simp] theorem answerWaitEnds_frame (s : State) (m : Nat) :
    (s.answerWaitEnds m).pending = s.pending ∧ (s.answerWaitEnds m).clock = s.clock ∧ (s.answerWaitEnds
      m).minutesBegun = s.minutesBegun ∧ (s.answerWaitEnds m).freeUses = s.freeUses ∧ (s.answerWaitEnds m).start
      = s.start ∧ (s.answerWaitEnds m).pins = s.pins ∧ (s.answerWaitEnds m).chain = s.chain ∧ (s.answerWaitEnds
      m).table = s.table ∧ (s.answerWaitEnds m).pieces = s.pieces ∧ (s.answerWaitEnds m).drive = s.drive ∧
      (s.answerWaitEnds m).frame = s.frame := by
  simp only [State.answerWaitEnds]; repeat' split
  all_goals simp

@[simp] theorem askAgain_frame (s : State) (creels : List Nat) :
    (s.askAgain creels).pending = s.pending ∧ (s.askAgain creels).clock = s.clock ∧ (s.askAgain
      creels).minutesBegun = s.minutesBegun ∧ (s.askAgain creels).freeUses = s.freeUses ∧ (s.askAgain
      creels).start = s.start ∧ (s.askAgain creels).pins = s.pins ∧ (s.askAgain creels).chain = s.chain ∧
      (s.askAgain creels).table = s.table ∧ (s.askAgain creels).pieces = s.pieces ∧ (s.askAgain creels).drive =
      s.drive ∧ (s.askAgain creels).frame = s.frame := by
  simp only [State.askAgain]
  all_goals simp

@[simp] theorem etaEnd_frame (s : State) (m : Nat) :
    (s.etaEnd m).pending = s.pending ∧ (s.etaEnd m).clock = s.clock ∧ (s.etaEnd m).minutesBegun = s.minutesBegun
      ∧ (s.etaEnd m).freeUses = s.freeUses ∧ (s.etaEnd m).start = s.start ∧ (s.etaEnd m).pins = s.pins ∧
      (s.etaEnd m).chain = s.chain ∧ (s.etaEnd m).table = s.table ∧ (s.etaEnd m).pieces = s.pieces ∧ (s.etaEnd
      m).drive = s.drive ∧ (s.etaEnd m).frame = s.frame := by
  simp only [State.etaEnd]; repeat' split
  all_goals simp

@[simp] theorem deferralEnds_frame (s : State) (m : Nat) :
    (s.deferralEnds m).pending = s.pending ∧ (s.deferralEnds m).clock = s.clock ∧ (s.deferralEnds
      m).minutesBegun = s.minutesBegun ∧ (s.deferralEnds m).freeUses = s.freeUses ∧ (s.deferralEnds m).start =
      s.start ∧ (s.deferralEnds m).pins = s.pins ∧ (s.deferralEnds m).chain = s.chain ∧ (s.deferralEnds m).table
      = s.table ∧ (s.deferralEnds m).pieces = s.pieces ∧ (s.deferralEnds m).drive = s.drive ∧ (s.deferralEnds
      m).frame = s.frame := by
  simp only [State.deferralEnds]; repeat' split
  all_goals simp

@[simp] theorem railRestarts_frame (s : State) :
    (s.railRestarts).pending = s.pending ∧ (s.railRestarts).clock = s.clock ∧ (s.railRestarts).minutesBegun =
      s.minutesBegun ∧ (s.railRestarts).freeUses = s.freeUses ∧ (s.railRestarts).start = s.start ∧
      (s.railRestarts).pins = s.pins ∧ (s.railRestarts).chain = s.chain ∧ (s.railRestarts).table = s.table ∧
      (s.railRestarts).pieces = s.pieces ∧ (s.railRestarts).drive = s.drive ∧ (s.railRestarts).frame = s.frame := by
  simp only [State.railRestarts]; repeat' split
  all_goals simp

@[simp] theorem laySection_frame (s : State) (creel : Nat) (metres : Nat) :
    (s.laySection creel metres).pending = s.pending ∧ (s.laySection creel metres).clock = s.clock ∧
      (s.laySection creel metres).minutesBegun = s.minutesBegun ∧ (s.laySection creel metres).freeUses =
      s.freeUses ∧ (s.laySection creel metres).start = s.start ∧ (s.laySection creel metres).pins = s.pins ∧
      (s.laySection creel metres).chain = s.chain ∧ (s.laySection creel metres).pieces = s.pieces ∧
      (s.laySection creel metres).drive = s.drive ∧ (s.laySection creel metres).frame = s.frame ∧ (s.laySection
      creel metres).tally = s.tally ∧ (s.laySection creel metres).line = s.line := by
  simp only [State.laySection]; repeat' split
  all_goals simp

@[simp] theorem takeRovingAck_frame (s : State) (src : Nat) (eta : Nat) (l : List Nat) :
    (s.takeRovingAck src eta l).pending = s.pending ∧ (s.takeRovingAck src eta l).clock = s.clock ∧
      (s.takeRovingAck src eta l).minutesBegun = s.minutesBegun ∧ (s.takeRovingAck src eta l).freeUses =
      s.freeUses ∧ (s.takeRovingAck src eta l).start = s.start ∧ (s.takeRovingAck src eta l).pins = s.pins ∧
      (s.takeRovingAck src eta l).chain = s.chain ∧ (s.takeRovingAck src eta l).table = s.table ∧
      (s.takeRovingAck src eta l).pieces = s.pieces ∧ (s.takeRovingAck src eta l).drive = s.drive ∧
      (s.takeRovingAck src eta l).frame = s.frame ∧ (s.takeRovingAck src eta l).tally = s.tally ∧
      (s.takeRovingAck src eta l).line = s.line := by
  simp only [State.takeRovingAck]; repeat' split
  all_goals simp

@[simp] theorem takeRovingDefer_frame (s : State) (src : Nat) (m : Nat) (l : List Nat) :
    (s.takeRovingDefer src m l).pending = s.pending ∧ (s.takeRovingDefer src m l).clock = s.clock ∧
      (s.takeRovingDefer src m l).minutesBegun = s.minutesBegun ∧ (s.takeRovingDefer src m l).freeUses =
      s.freeUses ∧ (s.takeRovingDefer src m l).start = s.start ∧ (s.takeRovingDefer src m l).pins = s.pins ∧
      (s.takeRovingDefer src m l).chain = s.chain ∧ (s.takeRovingDefer src m l).table = s.table ∧
      (s.takeRovingDefer src m l).pieces = s.pieces ∧ (s.takeRovingDefer src m l).drive = s.drive ∧
      (s.takeRovingDefer src m l).frame = s.frame ∧ (s.takeRovingDefer src m l).tally = s.tally ∧
      (s.takeRovingDefer src m l).line = s.line := by
  simp only [State.takeRovingDefer]; repeat' split
  all_goals simp

@[simp] theorem takeRovingLaid_frame (s : State) (src : Nat) (creel : Nat) (m : Nat) :
    (s.takeRovingLaid src creel m).pending = s.pending ∧ (s.takeRovingLaid src creel m).clock = s.clock ∧
      (s.takeRovingLaid src creel m).minutesBegun = s.minutesBegun ∧ (s.takeRovingLaid src creel m).freeUses =
      s.freeUses ∧ (s.takeRovingLaid src creel m).start = s.start ∧ (s.takeRovingLaid src creel m).pins = s.pins
      ∧ (s.takeRovingLaid src creel m).chain = s.chain ∧ (s.takeRovingLaid src creel m).pieces = s.pieces ∧
      (s.takeRovingLaid src creel m).drive = s.drive ∧ (s.takeRovingLaid src creel m).frame = s.frame ∧
      (s.takeRovingLaid src creel m).tally = s.tally ∧ (s.takeRovingLaid src creel m).line = s.line := by
  simp only [State.takeRovingLaid]; repeat' split
  all_goals simp

@[simp] theorem startPass_frame (s : State) (p : Pass) :
    (s.startPass p).pending = s.pending ∧ (s.startPass p).clock = s.clock ∧ (s.startPass p).minutesBegun =
      s.minutesBegun ∧ (s.startPass p).freeUses = s.freeUses ∧ (s.startPass p).start = s.start ∧ (s.startPass
      p).pins = s.pins ∧ (s.startPass p).table = s.table ∧ (s.startPass p).pieces = s.pieces ∧ (s.startPass
      p).drive = s.drive ∧ (s.startPass p).frame = s.frame ∧ (s.startPass p).roving = s.roving ∧ (s.startPass
      p).tally = s.tally ∧ (s.startPass p).line = s.line := by
  simp only [State.startPass]; repeat' split
  all_goals simp

@[simp] theorem nextPass_frame (s : State) :
    (s.nextPass).pending = s.pending ∧ (s.nextPass).clock = s.clock ∧ (s.nextPass).minutesBegun = s.minutesBegun
      ∧ (s.nextPass).freeUses = s.freeUses ∧ (s.nextPass).start = s.start ∧ (s.nextPass).pins = s.pins ∧
      (s.nextPass).table = s.table ∧ (s.nextPass).pieces = s.pieces ∧ (s.nextPass).drive = s.drive ∧
      (s.nextPass).frame = s.frame ∧ (s.nextPass).roving = s.roving ∧ (s.nextPass).tally = s.tally ∧
      (s.nextPass).line = s.line := by
  simp only [State.nextPass]; repeat' split
  all_goals simp

@[simp] theorem joinPass_frame (s : State) (p : Pass) :
    (s.joinPass p).pending = s.pending ∧ (s.joinPass p).clock = s.clock ∧ (s.joinPass p).minutesBegun =
      s.minutesBegun ∧ (s.joinPass p).freeUses = s.freeUses ∧ (s.joinPass p).start = s.start ∧ (s.joinPass
      p).pins = s.pins ∧ (s.joinPass p).table = s.table ∧ (s.joinPass p).pieces = s.pieces ∧ (s.joinPass
      p).drive = s.drive ∧ (s.joinPass p).frame = s.frame ∧ (s.joinPass p).roving = s.roving ∧ (s.joinPass
      p).tally = s.tally ∧ (s.joinPass p).line = s.line := by
  simp only [State.joinPass]
  all_goals simp

@[simp] theorem lateScan_frame (s : State) :
    (s.lateScan).pending = s.pending ∧ (s.lateScan).clock = s.clock ∧ (s.lateScan).minutesBegun = s.minutesBegun
      ∧ (s.lateScan).freeUses = s.freeUses ∧ (s.lateScan).start = s.start ∧ (s.lateScan).pins = s.pins ∧
      (s.lateScan).chain = s.chain ∧ (s.lateScan).table = s.table ∧ (s.lateScan).pieces = s.pieces ∧
      (s.lateScan).drive = s.drive ∧ (s.lateScan).frame = s.frame ∧ (s.lateScan).roving = s.roving ∧
      (s.lateScan).line = s.line := by
  simp only [State.lateScan]
  all_goals simp

@[simp] theorem scanExpires_frame (s : State) (side : Side) (due : Nat) :
    (s.scanExpires side due).pending = s.pending ∧ (s.scanExpires side due).clock = s.clock ∧ (s.scanExpires
      side due).minutesBegun = s.minutesBegun ∧ (s.scanExpires side due).freeUses = s.freeUses ∧ (s.scanExpires
      side due).start = s.start ∧ (s.scanExpires side due).pins = s.pins ∧ (s.scanExpires side due).table =
      s.table ∧ (s.scanExpires side due).pieces = s.pieces ∧ (s.scanExpires side due).drive = s.drive ∧
      (s.scanExpires side due).frame = s.frame ∧ (s.scanExpires side due).roving = s.roving ∧ (s.scanExpires
      side due).line = s.line := by
  simp only [State.scanExpires]; repeat' split
  all_goals simp

@[simp] theorem declareDown_frame (s : State) (n : Nat) :
    (s.declareDown n).pending = s.pending ∧ (s.declareDown n).clock = s.clock ∧ (s.declareDown n).minutesBegun =
      s.minutesBegun ∧ (s.declareDown n).start = s.start ∧ (s.declareDown n).pins = s.pins ∧ (s.declareDown
      n).chain = s.chain ∧ (s.declareDown n).drive = s.drive ∧ (s.declareDown n).frame = s.frame := by
  simp only [State.declareDown]; repeat' split
  all_goals simp

@[simp] theorem declareUp_frame (s : State) (n : Nat) :
    (s.declareUp n).pending = s.pending ∧ (s.declareUp n).clock = s.clock ∧ (s.declareUp n).minutesBegun =
      s.minutesBegun ∧ (s.declareUp n).freeUses = s.freeUses ∧ (s.declareUp n).start = s.start ∧ (s.declareUp
      n).pins = s.pins ∧ (s.declareUp n).chain = s.chain ∧ (s.declareUp n).drive = s.drive ∧ (s.declareUp
      n).frame = s.frame ∧ (s.declareUp n).roving = s.roving := by
  simp only [State.declareUp]; repeat' split
  all_goals simp

@[simp] theorem debounceCount_frame (s : State) (n : Nat) (yarn : Bool) :
    (s.debounceCount n yarn).pending = s.pending ∧ (s.debounceCount n yarn).clock = s.clock ∧ (s.debounceCount n
      yarn).minutesBegun = s.minutesBegun ∧ (s.debounceCount n yarn).freeUses = s.freeUses ∧ (s.debounceCount n
      yarn).start = s.start ∧ (s.debounceCount n yarn).pins = s.pins ∧ (s.debounceCount n yarn).chain = s.chain
      ∧ (s.debounceCount n yarn).pieces = s.pieces ∧ (s.debounceCount n yarn).drive = s.drive ∧ (s.debounceCount
      n yarn).frame = s.frame ∧ (s.debounceCount n yarn).roving = s.roving ∧ (s.debounceCount n yarn).tally =
      s.tally ∧ (s.debounceCount n yarn).line = s.line := by
  simp only [State.debounceCount]
  all_goals simp

@[simp] theorem takeReport_frame (s : State) (p : Nat × Option Bool) :
    (s.takeReport p).pending = s.pending ∧ (s.takeReport p).clock = s.clock ∧ (s.takeReport p).minutesBegun =
      s.minutesBegun ∧ (s.takeReport p).start = s.start ∧ (s.takeReport p).pins = s.pins ∧ (s.takeReport
      p).chain = s.chain ∧ (s.takeReport p).drive = s.drive ∧ (s.takeReport p).frame = s.frame := by
  simp only [State.takeReport]; repeat' split
  all_goals simp

@[simp] theorem debounceModule_frame (s : State) (side : Side) (m : Nat) (yarn : List Bool) :
    (s.debounceModule side m yarn).pending = s.pending ∧ (s.debounceModule side m yarn).clock = s.clock ∧
      (s.debounceModule side m yarn).minutesBegun = s.minutesBegun ∧ (s.debounceModule side m yarn).start =
      s.start ∧ (s.debounceModule side m yarn).pins = s.pins ∧ (s.debounceModule side m yarn).chain = s.chain ∧
      (s.debounceModule side m yarn).drive = s.drive ∧ (s.debounceModule side m yarn).frame = s.frame := by
  simp only [State.debounceModule]
  refine ⟨?_, ?_, ?_, ?_, ?_, ?_, ?_, ?_⟩ <;>
    exact (foldl_keeps _ _ (by simp) _ _).trans (foldl_keeps _ _ (by simp) _ _)

@[simp] theorem setModule_frame (s : State) (side : Side) (m : Nat) (v : ModuleRec) :
    (s.setModule side m v).pending = s.pending ∧ (s.setModule side m v).clock = s.clock ∧ (s.setModule side m
      v).minutesBegun = s.minutesBegun ∧ (s.setModule side m v).freeUses = s.freeUses ∧ (s.setModule side m
      v).start = s.start ∧ (s.setModule side m v).pins = s.pins ∧ (s.setModule side m v).table = s.table ∧
      (s.setModule side m v).pieces = s.pieces ∧ (s.setModule side m v).drive = s.drive ∧ (s.setModule side m
      v).frame = s.frame ∧ (s.setModule side m v).roving = s.roving ∧ (s.setModule side m v).tally = s.tally ∧
      (s.setModule side m v).line = s.line := by
  simp only [State.setModule]
  all_goals simp

@[simp] theorem clearRuns_frame (s : State) (l : List Nat) :
    (s.clearRuns l).pending = s.pending ∧ (s.clearRuns l).clock = s.clock ∧ (s.clearRuns l).minutesBegun =
      s.minutesBegun ∧ (s.clearRuns l).freeUses = s.freeUses ∧ (s.clearRuns l).start = s.start ∧ (s.clearRuns
      l).pins = s.pins ∧ (s.clearRuns l).chain = s.chain ∧ (s.clearRuns l).pieces = s.pieces ∧ (s.clearRuns
      l).drive = s.drive ∧ (s.clearRuns l).frame = s.frame ∧ (s.clearRuns l).roving = s.roving ∧ (s.clearRuns
      l).tally = s.tally ∧ (s.clearRuns l).line = s.line := by
  simp only [State.clearRuns]
  refine ⟨?_, ?_, ?_, ?_, ?_, ?_, ?_, ?_, ?_, ?_, ?_, ?_, ?_⟩ <;> exact foldl_keeps _ _ (by simp) _ _

@[simp] theorem storeReadings_frame (s : State) (side : Side) (m : Nat) (yarn : List Bool) :
    (s.storeReadings side m yarn).pending = s.pending ∧ (s.storeReadings side m yarn).clock = s.clock ∧
      (s.storeReadings side m yarn).minutesBegun = s.minutesBegun ∧ (s.storeReadings side m yarn).freeUses =
      s.freeUses ∧ (s.storeReadings side m yarn).start = s.start ∧ (s.storeReadings side m yarn).pins = s.pins ∧
      (s.storeReadings side m yarn).table = s.table ∧ (s.storeReadings side m yarn).pieces = s.pieces ∧
      (s.storeReadings side m yarn).drive = s.drive ∧ (s.storeReadings side m yarn).frame = s.frame ∧
      (s.storeReadings side m yarn).roving = s.roving ∧ (s.storeReadings side m yarn).tally = s.tally ∧
      (s.storeReadings side m yarn).line = s.line := by
  simp only [State.storeReadings]
  refine ⟨?_, ?_, ?_, ?_, ?_, ?_, ?_, ?_, ?_, ?_, ?_, ?_, ?_⟩ <;> exact foldl_keeps _ _ (by simp) _ _

@[simp] theorem applyModule_frame (s : State) (side : Side) (detect : Bool) (m : Nat) (good : Bool) (yarn : List Bool) :
    (s.applyModule side detect m good yarn).pending = s.pending ∧ (s.applyModule side detect m good yarn).clock
      = s.clock ∧ (s.applyModule side detect m good yarn).minutesBegun = s.minutesBegun ∧ (s.applyModule side
      detect m good yarn).start = s.start ∧ (s.applyModule side detect m good yarn).pins = s.pins ∧
      (s.applyModule side detect m good yarn).drive = s.drive ∧ (s.applyModule side detect m good yarn).frame =
      s.frame := by
  simp only [State.applyModule]; repeat' split
  all_goals simp

@[simp] theorem applyModules_frame (s : State) (side : Side) (detect : Bool) (matched : Bool) (m : Nat) (l : List PendingFrame) :
    (s.applyModules side detect matched m l).pending = s.pending ∧ (s.applyModules side detect matched m
      l).clock = s.clock ∧ (s.applyModules side detect matched m l).minutesBegun = s.minutesBegun ∧
      (s.applyModules side detect matched m l).start = s.start ∧ (s.applyModules side detect matched m l).pins =
      s.pins ∧ (s.applyModules side detect matched m l).drive = s.drive ∧ (s.applyModules side detect matched m
      l).frame = s.frame := by
  induction l generalizing s m with
  | nil => simp [State.applyModules]
  | cons f rest ih => simp [State.applyModules, ih]

@[simp] theorem applyPass_frame (s : State) (side : Side) (frames : List PendingFrame) (matched : Bool) :
    (s.applyPass side frames matched).pending = s.pending ∧ (s.applyPass side frames matched).clock = s.clock ∧
      (s.applyPass side frames matched).minutesBegun = s.minutesBegun ∧ (s.applyPass side frames matched).start
      = s.start ∧ (s.applyPass side frames matched).pins = s.pins ∧ (s.applyPass side frames matched).drive =
      s.drive ∧ (s.applyPass side frames matched).frame = s.frame := by
  simp only [State.applyPass]; repeat' split
  all_goals simp

@[simp] theorem endFlight_frame (s : State) :
    (s.endFlight).pending = s.pending ∧ (s.endFlight).clock = s.clock ∧ (s.endFlight).minutesBegun =
      s.minutesBegun ∧ (s.endFlight).freeUses = s.freeUses ∧ (s.endFlight).start = s.start ∧ (s.endFlight).pins
      = s.pins ∧ (s.endFlight).table = s.table ∧ (s.endFlight).pieces = s.pieces ∧ (s.endFlight).drive = s.drive
      ∧ (s.endFlight).frame = s.frame ∧ (s.endFlight).roving = s.roving ∧ (s.endFlight).tally = s.tally ∧
      (s.endFlight).line = s.line := by
  simp only [State.endFlight]
  all_goals simp

@[simp] theorem senseEnds_frame (s : State) (f : PassFlight) (trailer : BitVec 12) :
    (s.senseEnds f trailer).pending = s.pending ∧ (s.senseEnds f trailer).clock = s.clock ∧ (s.senseEnds f
      trailer).minutesBegun = s.minutesBegun ∧ (s.senseEnds f trailer).start = s.start ∧ (s.senseEnds f
      trailer).pins = s.pins ∧ (s.senseEnds f trailer).drive = s.drive ∧ (s.senseEnds f trailer).frame = s.frame := by
  simp only [State.senseEnds]
  all_goals simp

@[simp] theorem driveEnds_frame (s : State) (f : PassFlight) :
    (s.driveEnds f).pending = s.pending ∧ (s.driveEnds f).clock = s.clock ∧ (s.driveEnds f).minutesBegun =
      s.minutesBegun ∧ (s.driveEnds f).freeUses = s.freeUses ∧ (s.driveEnds f).start = s.start ∧ (s.driveEnds
      f).pins = s.pins ∧ (s.driveEnds f).table = s.table ∧ (s.driveEnds f).pieces = s.pieces ∧ (s.driveEnds
      f).drive = s.drive ∧ (s.driveEnds f).frame = s.frame ∧ (s.driveEnds f).roving = s.roving ∧ (s.driveEnds
      f).tally = s.tally ∧ (s.driveEnds f).line = s.line := by
  simp only [State.driveEnds]
  all_goals simp

@[simp] theorem rollerPulse_frame (s : State) :
    (s.rollerPulse).pending = s.pending ∧ (s.rollerPulse).clock = s.clock ∧ (s.rollerPulse).minutesBegun =
      s.minutesBegun ∧ (s.rollerPulse).freeUses = s.freeUses ∧ (s.rollerPulse).start = s.start ∧
      (s.rollerPulse).pins = s.pins ∧ (s.rollerPulse).table = s.table ∧ (s.rollerPulse).pieces = s.pieces ∧
      (s.rollerPulse).frame = s.frame ∧ (s.rollerPulse).roving = s.roving ∧ (s.rollerPulse).tally = s.tally ∧
      (s.rollerPulse).line = s.line := by
  simp only [State.rollerPulse]; repeat' split
  all_goals simp

@[simp] theorem takeRemainder_frame (s : State) :
    (s.takeRemainder).pending = s.pending ∧ (s.takeRemainder).clock = s.clock ∧ (s.takeRemainder).minutesBegun =
      s.minutesBegun ∧ (s.takeRemainder).freeUses = s.freeUses ∧ (s.takeRemainder).start = s.start ∧
      (s.takeRemainder).pins = s.pins ∧ (s.takeRemainder).chain = s.chain ∧ (s.takeRemainder).table = s.table ∧
      (s.takeRemainder).pieces = s.pieces ∧ (s.takeRemainder).frame = s.frame ∧ (s.takeRemainder).roving =
      s.roving ∧ (s.takeRemainder).tally = s.tally ∧ (s.takeRemainder).line = s.line := by
  simp only [State.takeRemainder]
  all_goals simp

@[simp] theorem buildForecast_frame (s : State) :
    (s.buildForecast).pending = s.pending ∧ (s.buildForecast).clock = s.clock ∧ (s.buildForecast).minutesBegun =
      s.minutesBegun ∧ (s.buildForecast).freeUses = s.freeUses ∧ (s.buildForecast).start = s.start ∧
      (s.buildForecast).pins = s.pins ∧ (s.buildForecast).chain = s.chain ∧ (s.buildForecast).table = s.table ∧
      (s.buildForecast).pieces = s.pieces ∧ (s.buildForecast).drive = s.drive ∧ (s.buildForecast).roving =
      s.roving := by
  simp only [State.buildForecast]
  all_goals simp

@[simp] theorem forecastIfMoved_frame (s : State) :
    (s.forecastIfMoved).pending = s.pending ∧ (s.forecastIfMoved).clock = s.clock ∧
      (s.forecastIfMoved).minutesBegun = s.minutesBegun ∧ (s.forecastIfMoved).freeUses = s.freeUses ∧
      (s.forecastIfMoved).start = s.start ∧ (s.forecastIfMoved).pins = s.pins ∧ (s.forecastIfMoved).chain =
      s.chain ∧ (s.forecastIfMoved).table = s.table ∧ (s.forecastIfMoved).pieces = s.pieces ∧
      (s.forecastIfMoved).drive = s.drive ∧ (s.forecastIfMoved).roving = s.roving := by
  simp only [State.forecastIfMoved]; repeat' split
  all_goals simp

@[simp] theorem makeClaim_frame (s : State) (answer : ClaimAnswer) :
    (s.makeClaim answer).pending = s.pending ∧ (s.makeClaim answer).clock = s.clock ∧ (s.makeClaim
      answer).minutesBegun = s.minutesBegun ∧ (s.makeClaim answer).freeUses = s.freeUses ∧ (s.makeClaim
      answer).start = s.start ∧ (s.makeClaim answer).pins = s.pins ∧ (s.makeClaim answer).chain = s.chain ∧
      (s.makeClaim answer).table = s.table ∧ (s.makeClaim answer).pieces = s.pieces ∧ (s.makeClaim answer).drive
      = s.drive ∧ (s.makeClaim answer).roving = s.roving := by
  simp only [State.makeClaim]
  all_goals simp

@[simp] theorem claimAtTick_frame (s : State) :
    (s.claimAtTick).pending = s.pending ∧ (s.claimAtTick).clock = s.clock ∧ (s.claimAtTick).minutesBegun =
      s.minutesBegun ∧ (s.claimAtTick).freeUses = s.freeUses ∧ (s.claimAtTick).start = s.start ∧
      (s.claimAtTick).pins = s.pins ∧ (s.claimAtTick).chain = s.chain ∧ (s.claimAtTick).table = s.table ∧
      (s.claimAtTick).pieces = s.pieces ∧ (s.claimAtTick).drive = s.drive ∧ (s.claimAtTick).roving = s.roving := by
  simp only [State.claimAtTick]; repeat' split
  all_goals simp

@[simp] theorem endClaim_frame (s : State) :
    (s.endClaim).pending = s.pending ∧ (s.endClaim).clock = s.clock ∧ (s.endClaim).minutesBegun = s.minutesBegun
      ∧ (s.endClaim).freeUses = s.freeUses ∧ (s.endClaim).start = s.start ∧ (s.endClaim).pins = s.pins ∧
      (s.endClaim).chain = s.chain ∧ (s.endClaim).table = s.table ∧ (s.endClaim).pieces = s.pieces ∧
      (s.endClaim).drive = s.drive ∧ (s.endClaim).roving = s.roving ∧ (s.endClaim).tally = s.tally ∧
      (s.endClaim).line = s.line := by
  simp only [State.endClaim]
  all_goals simp

@[simp] theorem leaveCalling_frame (s : State) (m : FrameMode) :
    (s.leaveCalling m).pending = s.pending ∧ (s.leaveCalling m).clock = s.clock ∧ (s.leaveCalling
      m).minutesBegun = s.minutesBegun ∧ (s.leaveCalling m).start = s.start ∧ (s.leaveCalling m).pins = s.pins ∧
      (s.leaveCalling m).chain = s.chain ∧ (s.leaveCalling m).drive = s.drive ∧ (s.leaveCalling m).roving =
      s.roving := by
  simp only [State.leaveCalling]; repeat' split
  all_goals simp

@[simp] theorem placeMode_frame (s : State) (m : FrameMode) (r : Option StopReason) :
    (s.placeMode m r).pending = s.pending ∧ (s.placeMode m r).clock = s.clock ∧ (s.placeMode m r).minutesBegun =
      s.minutesBegun ∧ (s.placeMode m r).freeUses = s.freeUses ∧ (s.placeMode m r).start = s.start ∧
      (s.placeMode m r).pins = s.pins ∧ (s.placeMode m r).chain = s.chain ∧ (s.placeMode m r).table = s.table ∧
      (s.placeMode m r).pieces = s.pieces ∧ (s.placeMode m r).drive = s.drive ∧ (s.placeMode m r).roving =
      s.roving ∧ (s.placeMode m r).tally = s.tally ∧ (s.placeMode m r).line = s.line := by
  simp only [State.placeMode]
  all_goals simp

@[simp] theorem enterFullStop_frame (s : State) :
    (s.enterFullStop).pending = s.pending ∧ (s.enterFullStop).clock = s.clock ∧ (s.enterFullStop).minutesBegun =
      s.minutesBegun ∧ (s.enterFullStop).freeUses = s.freeUses ∧ (s.enterFullStop).start = s.start ∧
      (s.enterFullStop).pins = s.pins ∧ (s.enterFullStop).chain = s.chain ∧ (s.enterFullStop).table = s.table ∧
      (s.enterFullStop).pieces = s.pieces ∧ (s.enterFullStop).drive = s.drive ∧ (s.enterFullStop).roving =
      s.roving := by
  simp only [State.enterFullStop]; repeat' split
  all_goals simp

@[simp] theorem entryActions_frame (s : State) (m : FrameMode) :
    (s.entryActions m).pending = s.pending ∧ (s.entryActions m).clock = s.clock ∧ (s.entryActions
      m).minutesBegun = s.minutesBegun ∧ (s.entryActions m).freeUses = s.freeUses ∧ (s.entryActions m).start =
      s.start ∧ (s.entryActions m).pins = s.pins ∧ (s.entryActions m).chain = s.chain ∧ (s.entryActions m).table
      = s.table ∧ (s.entryActions m).pieces = s.pieces ∧ (s.entryActions m).drive = s.drive ∧ (s.entryActions
      m).roving = s.roving := by
  simp only [State.entryActions]; repeat' split
  all_goals simp

@[simp] theorem reportMode_frame (s : State) (m : FrameMode) :
    (s.reportMode m).pending = s.pending ∧ (s.reportMode m).clock = s.clock ∧ (s.reportMode m).minutesBegun =
      s.minutesBegun ∧ (s.reportMode m).freeUses = s.freeUses ∧ (s.reportMode m).start = s.start ∧ (s.reportMode
      m).pins = s.pins ∧ (s.reportMode m).chain = s.chain ∧ (s.reportMode m).table = s.table ∧ (s.reportMode
      m).pieces = s.pieces ∧ (s.reportMode m).frame = s.frame ∧ (s.reportMode m).roving = s.roving ∧
      (s.reportMode m).tally = s.tally ∧ (s.reportMode m).line = s.line := by
  simp only [State.reportMode]
  all_goals simp

@[simp] theorem changeMode_frame (s : State) (m : FrameMode) (r : Option StopReason) :
    (s.changeMode m r).pending = s.pending ∧ (s.changeMode m r).clock = s.clock ∧ (s.changeMode m
      r).minutesBegun = s.minutesBegun ∧ (s.changeMode m r).start = s.start ∧ (s.changeMode m r).pins = s.pins ∧
      (s.changeMode m r).chain = s.chain ∧ (s.changeMode m r).roving = s.roving := by
  simp only [State.changeMode]
  all_goals simp

@[simp] theorem startFrame_frame (s : State) :
    (s.startFrame).pending = s.pending ∧ (s.startFrame).clock = s.clock ∧ (s.startFrame).minutesBegun =
      s.minutesBegun ∧ (s.startFrame).start = s.start ∧ (s.startFrame).pins = s.pins ∧ (s.startFrame).chain =
      s.chain ∧ (s.startFrame).roving = s.roving := by
  simp only [State.startFrame]; repeat' split
  all_goals simp

@[simp] theorem operatorStop_frame (s : State) :
    (s.operatorStop).pending = s.pending ∧ (s.operatorStop).clock = s.clock ∧ (s.operatorStop).minutesBegun =
      s.minutesBegun ∧ (s.operatorStop).start = s.start ∧ (s.operatorStop).pins = s.pins ∧
      (s.operatorStop).chain = s.chain ∧ (s.operatorStop).roving = s.roving := by
  simp only [State.operatorStop]; repeat' split
  all_goals simp

@[simp] theorem driveFaulted_frame (s : State) :
    (s.driveFaulted).pending = s.pending ∧ (s.driveFaulted).clock = s.clock ∧ (s.driveFaulted).minutesBegun =
      s.minutesBegun ∧ (s.driveFaulted).start = s.start ∧ (s.driveFaulted).pins = s.pins ∧
      (s.driveFaulted).chain = s.chain ∧ (s.driveFaulted).roving = s.roving := by
  simp only [State.driveFaulted]; repeat' split
  all_goals simp

@[simp] theorem permitRise_frame (s : State) :
    (s.permitRise).pending = s.pending ∧ (s.permitRise).clock = s.clock ∧ (s.permitRise).minutesBegun =
      s.minutesBegun ∧ (s.permitRise).start = s.start ∧ (s.permitRise).pins = s.pins ∧ (s.permitRise).chain =
      s.chain ∧ (s.permitRise).roving = s.roving := by
  simp only [State.permitRise]; repeat' split
  all_goals simp

@[simp] theorem claimFillReached_frame (s : State) :
    (s.claimFillReached).pending = s.pending ∧ (s.claimFillReached).clock = s.clock ∧
      (s.claimFillReached).minutesBegun = s.minutesBegun ∧ (s.claimFillReached).freeUses = s.freeUses ∧
      (s.claimFillReached).start = s.start ∧ (s.claimFillReached).pins = s.pins ∧ (s.claimFillReached).chain =
      s.chain ∧ (s.claimFillReached).table = s.table ∧ (s.claimFillReached).pieces = s.pieces ∧
      (s.claimFillReached).drive = s.drive ∧ (s.claimFillReached).roving = s.roving := by
  simp only [State.claimFillReached]; repeat' split
  all_goals simp

@[simp] theorem fullReached_frame (s : State) :
    (s.fullReached).pending = s.pending ∧ (s.fullReached).clock = s.clock ∧ (s.fullReached).minutesBegun =
      s.minutesBegun ∧ (s.fullReached).start = s.start ∧ (s.fullReached).pins = s.pins ∧ (s.fullReached).chain =
      s.chain ∧ (s.fullReached).roving = s.roving := by
  simp only [State.fullReached]; repeat' split
  all_goals simp

@[simp] theorem addDecimetre_frame (s : State) :
    (s.addDecimetre).pending = s.pending ∧ (s.addDecimetre).clock = s.clock ∧ (s.addDecimetre).minutesBegun =
      s.minutesBegun ∧ (s.addDecimetre).start = s.start ∧ (s.addDecimetre).pins = s.pins ∧
      (s.addDecimetre).chain = s.chain ∧ (s.addDecimetre).roving = s.roving := by
  simp only [State.addDecimetre]; repeat' split
  all_goals simp

@[simp] theorem addDecimetres_frame (s : State) (n : Nat) :
    (s.addDecimetres n).pending = s.pending ∧ (s.addDecimetres n).clock = s.clock ∧ (s.addDecimetres
      n).minutesBegun = s.minutesBegun ∧ (s.addDecimetres n).start = s.start ∧ (s.addDecimetres n).pins = s.pins
      ∧ (s.addDecimetres n).chain = s.chain ∧ (s.addDecimetres n).roving = s.roving := by
  induction n generalizing s with
  | zero => simp [State.addDecimetres]
  | succ n ih => simp [State.addDecimetres, ih]

@[simp] theorem doffRecords_frame (s : State) :
    (s.doffRecords).pending = s.pending ∧ (s.doffRecords).clock = s.clock ∧ (s.doffRecords).minutesBegun =
      s.minutesBegun ∧ (s.doffRecords).freeUses = s.freeUses ∧ (s.doffRecords).start = s.start ∧
      (s.doffRecords).pins = s.pins ∧ (s.doffRecords).chain = s.chain ∧ (s.doffRecords).pieces = s.pieces ∧
      (s.doffRecords).roving = s.roving ∧ (s.doffRecords).line = s.line := by
  simp only [State.doffRecords]
  all_goals simp

@[simp] theorem completeDoff_frame (s : State) :
    (s.completeDoff).pending = s.pending ∧ (s.completeDoff).clock = s.clock ∧ (s.completeDoff).minutesBegun =
      s.minutesBegun ∧ (s.completeDoff).start = s.start ∧ (s.completeDoff).pins = s.pins ∧
      (s.completeDoff).chain = s.chain ∧ (s.completeDoff).roving = s.roving := by
  simp only [State.completeDoff]; repeat' split
  all_goals simp

@[simp] theorem takeDoffStart_frame (s : State) (src : Nat) :
    (s.takeDoffStart src).pending = s.pending ∧ (s.takeDoffStart src).clock = s.clock ∧ (s.takeDoffStart
      src).minutesBegun = s.minutesBegun ∧ (s.takeDoffStart src).start = s.start ∧ (s.takeDoffStart src).pins =
      s.pins ∧ (s.takeDoffStart src).chain = s.chain ∧ (s.takeDoffStart src).roving = s.roving := by
  simp only [State.takeDoffStart]; repeat' split
  all_goals simp

@[simp] theorem takeDoffEnd_frame (s : State) (src : Nat) :
    (s.takeDoffEnd src).pending = s.pending ∧ (s.takeDoffEnd src).clock = s.clock ∧ (s.takeDoffEnd
      src).minutesBegun = s.minutesBegun ∧ (s.takeDoffEnd src).start = s.start ∧ (s.takeDoffEnd src).pins =
      s.pins ∧ (s.takeDoffEnd src).chain = s.chain ∧ (s.takeDoffEnd src).roving = s.roving := by
  simp only [State.takeDoffEnd]; repeat' split
  all_goals simp

@[simp] theorem takeDoffAbort_frame (s : State) (src : Nat) :
    (s.takeDoffAbort src).pending = s.pending ∧ (s.takeDoffAbort src).clock = s.clock ∧ (s.takeDoffAbort
      src).minutesBegun = s.minutesBegun ∧ (s.takeDoffAbort src).start = s.start ∧ (s.takeDoffAbort src).pins =
      s.pins ∧ (s.takeDoffAbort src).chain = s.chain ∧ (s.takeDoffAbort src).roving = s.roving := by
  simp only [State.takeDoffAbort]; repeat' split
  all_goals simp

@[simp] theorem takeAnswer_frame (s : State) (src : Nat) (st : ClaimState) (p : Option Nat) (e : Option Nat) (a : ClaimAnswer) :
    (s.takeAnswer src st p e a).pending = s.pending ∧ (s.takeAnswer src st p e a).clock = s.clock ∧
      (s.takeAnswer src st p e a).minutesBegun = s.minutesBegun ∧ (s.takeAnswer src st p e a).freeUses =
      s.freeUses ∧ (s.takeAnswer src st p e a).start = s.start ∧ (s.takeAnswer src st p e a).pins = s.pins ∧
      (s.takeAnswer src st p e a).chain = s.chain ∧ (s.takeAnswer src st p e a).table = s.table ∧ (s.takeAnswer
      src st p e a).pieces = s.pieces ∧ (s.takeAnswer src st p e a).drive = s.drive ∧ (s.takeAnswer src st p e
      a).roving = s.roving ∧ (s.takeAnswer src st p e a).tally = s.tally ∧ (s.takeAnswer src st p e a).line =
      s.line := by
  simp only [State.takeAnswer]; repeat' split
  all_goals simp

@[simp] theorem takeDoffQueued_frame (s : State) (src : Nat) (p : Nat) :
    (s.takeDoffQueued src p).pending = s.pending ∧ (s.takeDoffQueued src p).clock = s.clock ∧ (s.takeDoffQueued
      src p).minutesBegun = s.minutesBegun ∧ (s.takeDoffQueued src p).freeUses = s.freeUses ∧ (s.takeDoffQueued
      src p).start = s.start ∧ (s.takeDoffQueued src p).pins = s.pins ∧ (s.takeDoffQueued src p).chain = s.chain
      ∧ (s.takeDoffQueued src p).table = s.table ∧ (s.takeDoffQueued src p).pieces = s.pieces ∧
      (s.takeDoffQueued src p).drive = s.drive ∧ (s.takeDoffQueued src p).roving = s.roving ∧ (s.takeDoffQueued
      src p).tally = s.tally ∧ (s.takeDoffQueued src p).line = s.line := by
  simp only [State.takeDoffQueued]
  all_goals simp

@[simp] theorem takeDoffGrant_frame (s : State) (src : Nat) (e : Nat) :
    (s.takeDoffGrant src e).pending = s.pending ∧ (s.takeDoffGrant src e).clock = s.clock ∧ (s.takeDoffGrant src
      e).minutesBegun = s.minutesBegun ∧ (s.takeDoffGrant src e).freeUses = s.freeUses ∧ (s.takeDoffGrant src
      e).start = s.start ∧ (s.takeDoffGrant src e).pins = s.pins ∧ (s.takeDoffGrant src e).chain = s.chain ∧
      (s.takeDoffGrant src e).table = s.table ∧ (s.takeDoffGrant src e).pieces = s.pieces ∧ (s.takeDoffGrant src
      e).drive = s.drive ∧ (s.takeDoffGrant src e).roving = s.roving ∧ (s.takeDoffGrant src e).tally = s.tally ∧
      (s.takeDoffGrant src e).line = s.line := by
  simp only [State.takeDoffGrant]
  all_goals simp

@[simp] theorem dofferRestarts_frame (s : State) :
    (s.dofferRestarts).pending = s.pending ∧ (s.dofferRestarts).clock = s.clock ∧
      (s.dofferRestarts).minutesBegun = s.minutesBegun ∧ (s.dofferRestarts).freeUses = s.freeUses ∧
      (s.dofferRestarts).start = s.start ∧ (s.dofferRestarts).pins = s.pins ∧ (s.dofferRestarts).chain = s.chain
      ∧ (s.dofferRestarts).table = s.table ∧ (s.dofferRestarts).pieces = s.pieces ∧ (s.dofferRestarts).drive =
      s.drive ∧ (s.dofferRestarts).roving = s.roving := by
  simp only [State.dofferRestarts]; repeat' split
  all_goals simp

@[simp] theorem claimUnanswered_frame (s : State) :
    (s.claimUnanswered).pending = s.pending ∧ (s.claimUnanswered).clock = s.clock ∧
      (s.claimUnanswered).minutesBegun = s.minutesBegun ∧ (s.claimUnanswered).freeUses = s.freeUses ∧
      (s.claimUnanswered).start = s.start ∧ (s.claimUnanswered).pins = s.pins ∧ (s.claimUnanswered).chain =
      s.chain ∧ (s.claimUnanswered).table = s.table ∧ (s.claimUnanswered).pieces = s.pieces ∧
      (s.claimUnanswered).drive = s.drive ∧ (s.claimUnanswered).roving = s.roving := by
  simp only [State.claimUnanswered]; repeat' split
  all_goals simp

@[simp] theorem handTally_frame (s : State) (dst : Nat) (o : OpenShift) (closed : Bool) (m : Nat) (a : SideValues) (b : SideValues) :
    (s.handTally dst o closed m a b).pending = s.pending ∧ (s.handTally dst o closed m a b).clock = s.clock ∧
      (s.handTally dst o closed m a b).minutesBegun = s.minutesBegun ∧ (s.handTally dst o closed m a b).freeUses
      = s.freeUses ∧ (s.handTally dst o closed m a b).start = s.start ∧ (s.handTally dst o closed m a b).pins =
      s.pins ∧ (s.handTally dst o closed m a b).chain = s.chain ∧ (s.handTally dst o closed m a b).table =
      s.table ∧ (s.handTally dst o closed m a b).pieces = s.pieces ∧ (s.handTally dst o closed m a b).drive =
      s.drive ∧ (s.handTally dst o closed m a b).frame = s.frame ∧ (s.handTally dst o closed m a b).roving =
      s.roving := by
  simp only [State.handTally]
  all_goals simp

@[simp] theorem answerOpen_frame (s : State) (dst : Nat) :
    (s.answerOpen dst).pending = s.pending ∧ (s.answerOpen dst).clock = s.clock ∧ (s.answerOpen
      dst).minutesBegun = s.minutesBegun ∧ (s.answerOpen dst).freeUses = s.freeUses ∧ (s.answerOpen dst).start =
      s.start ∧ (s.answerOpen dst).pins = s.pins ∧ (s.answerOpen dst).chain = s.chain ∧ (s.answerOpen dst).table
      = s.table ∧ (s.answerOpen dst).pieces = s.pieces ∧ (s.answerOpen dst).drive = s.drive ∧ (s.answerOpen
      dst).frame = s.frame ∧ (s.answerOpen dst).roving = s.roving := by
  simp only [State.answerOpen]
  all_goals simp

@[simp] theorem answerClosed_frame (s : State) (dst : Nat) (c : ClosedShift) :
    (s.answerClosed dst c).pending = s.pending ∧ (s.answerClosed dst c).clock = s.clock ∧ (s.answerClosed dst
      c).minutesBegun = s.minutesBegun ∧ (s.answerClosed dst c).freeUses = s.freeUses ∧ (s.answerClosed dst
      c).start = s.start ∧ (s.answerClosed dst c).pins = s.pins ∧ (s.answerClosed dst c).chain = s.chain ∧
      (s.answerClosed dst c).table = s.table ∧ (s.answerClosed dst c).pieces = s.pieces ∧ (s.answerClosed dst
      c).drive = s.drive ∧ (s.answerClosed dst c).frame = s.frame ∧ (s.answerClosed dst c).roving = s.roving := by
  simp only [State.answerClosed]
  all_goals simp

@[simp] theorem answerNone_frame (s : State) (dst : Nat) (n : Nat) :
    (s.answerNone dst n).pending = s.pending ∧ (s.answerNone dst n).clock = s.clock ∧ (s.answerNone dst
      n).minutesBegun = s.minutesBegun ∧ (s.answerNone dst n).freeUses = s.freeUses ∧ (s.answerNone dst n).start
      = s.start ∧ (s.answerNone dst n).pins = s.pins ∧ (s.answerNone dst n).chain = s.chain ∧ (s.answerNone dst
      n).table = s.table ∧ (s.answerNone dst n).pieces = s.pieces ∧ (s.answerNone dst n).drive = s.drive ∧
      (s.answerNone dst n).frame = s.frame ∧ (s.answerNone dst n).roving = s.roving := by
  simp only [State.answerNone]
  all_goals simp

@[simp] theorem takeQuery_frame (s : State) (src : Nat) (n : Nat) :
    (s.takeQuery src n).pending = s.pending ∧ (s.takeQuery src n).clock = s.clock ∧ (s.takeQuery src
      n).minutesBegun = s.minutesBegun ∧ (s.takeQuery src n).freeUses = s.freeUses ∧ (s.takeQuery src n).start =
      s.start ∧ (s.takeQuery src n).pins = s.pins ∧ (s.takeQuery src n).chain = s.chain ∧ (s.takeQuery src
      n).table = s.table ∧ (s.takeQuery src n).pieces = s.pieces ∧ (s.takeQuery src n).drive = s.drive ∧
      (s.takeQuery src n).frame = s.frame ∧ (s.takeQuery src n).roving = s.roving := by
  simp only [State.takeQuery]; repeat' split
  all_goals simp

@[simp] theorem closeOffAll_frame (s : State) :
    (s.closeOffAll).pending = s.pending ∧ (s.closeOffAll).clock = s.clock ∧ (s.closeOffAll).minutesBegun =
      s.minutesBegun ∧ (s.closeOffAll).freeUses = s.freeUses ∧ (s.closeOffAll).start = s.start ∧
      (s.closeOffAll).pins = s.pins ∧ (s.closeOffAll).chain = s.chain ∧ (s.closeOffAll).pieces = s.pieces ∧
      (s.closeOffAll).drive = s.drive ∧ (s.closeOffAll).frame = s.frame ∧ (s.closeOffAll).roving = s.roving ∧
      (s.closeOffAll).tally = s.tally ∧ (s.closeOffAll).line = s.line := by
  simp only [State.closeOffAll]
  all_goals simp

@[simp] theorem clearShares_frame (s : State) :
    (s.clearShares).pending = s.pending ∧ (s.clearShares).clock = s.clock ∧ (s.clearShares).minutesBegun =
      s.minutesBegun ∧ (s.clearShares).freeUses = s.freeUses ∧ (s.clearShares).start = s.start ∧
      (s.clearShares).pins = s.pins ∧ (s.clearShares).chain = s.chain ∧ (s.clearShares).pieces = s.pieces ∧
      (s.clearShares).drive = s.drive ∧ (s.clearShares).frame = s.frame ∧ (s.clearShares).roving = s.roving ∧
      (s.clearShares).tally = s.tally ∧ (s.clearShares).line = s.line := by
  simp only [State.clearShares]
  all_goals simp

@[simp] theorem closeShift_frame (s : State) (o : Nat) (st : Nat) :
    (s.closeShift o st).pending = s.pending ∧ (s.closeShift o st).clock = s.clock ∧ (s.closeShift o
      st).minutesBegun = s.minutesBegun ∧ (s.closeShift o st).freeUses = s.freeUses ∧ (s.closeShift o st).start
      = s.start ∧ (s.closeShift o st).pins = s.pins ∧ (s.closeShift o st).chain = s.chain ∧ (s.closeShift o
      st).pieces = s.pieces ∧ (s.closeShift o st).drive = s.drive ∧ (s.closeShift o st).frame = s.frame ∧
      (s.closeShift o st).roving = s.roving ∧ (s.closeShift o st).line = s.line := by
  simp only [State.closeShift]
  all_goals simp

@[simp] theorem takeShiftChange_frame (s : State) (src : Nat) (c : Nat) (o : Nat) (st : Nat) :
    (s.takeShiftChange src c o st).pending = s.pending ∧ (s.takeShiftChange src c o st).clock = s.clock ∧
      (s.takeShiftChange src c o st).minutesBegun = s.minutesBegun ∧ (s.takeShiftChange src c o st).freeUses =
      s.freeUses ∧ (s.takeShiftChange src c o st).start = s.start ∧ (s.takeShiftChange src c o st).pins = s.pins
      ∧ (s.takeShiftChange src c o st).chain = s.chain ∧ (s.takeShiftChange src c o st).pieces = s.pieces ∧
      (s.takeShiftChange src c o st).drive = s.drive ∧ (s.takeShiftChange src c o st).frame = s.frame ∧
      (s.takeShiftChange src c o st).roving = s.roving := by
  simp only [State.takeShiftChange]; repeat' split
  all_goals simp

@[simp] theorem acceptTake_frame (s : State) (c : Call) (src : Nat) :
    (s.acceptTake c src).pending = s.pending ∧ (s.acceptTake c src).clock = s.clock ∧ (s.acceptTake c
      src).minutesBegun = s.minutesBegun ∧ (s.acceptTake c src).freeUses = s.freeUses ∧ (s.acceptTake c
      src).start = s.start ∧ (s.acceptTake c src).pins = s.pins ∧ (s.acceptTake c src).chain = s.chain ∧
      (s.acceptTake c src).drive = s.drive ∧ (s.acceptTake c src).frame = s.frame ∧ (s.acceptTake c src).roving
      = s.roving := by
  simp only [State.acceptTake]
  all_goals simp

@[simp] theorem takeTake_frame (s : State) (src : Nat) (n : Nat) (sp : Nat) :
    (s.takeTake src n sp).pending = s.pending ∧ (s.takeTake src n sp).clock = s.clock ∧ (s.takeTake src n
      sp).minutesBegun = s.minutesBegun ∧ (s.takeTake src n sp).freeUses = s.freeUses ∧ (s.takeTake src n
      sp).start = s.start ∧ (s.takeTake src n sp).pins = s.pins ∧ (s.takeTake src n sp).chain = s.chain ∧
      (s.takeTake src n sp).drive = s.drive ∧ (s.takeTake src n sp).frame = s.frame ∧ (s.takeTake src n
      sp).roving = s.roving := by
  simp only [State.takeTake]; repeat' split
  all_goals simp

@[simp] theorem countFailed_frame (s : State) (n : Nat) :
    (s.countFailed n).pending = s.pending ∧ (s.countFailed n).clock = s.clock ∧ (s.countFailed n).minutesBegun =
      s.minutesBegun ∧ (s.countFailed n).freeUses = s.freeUses ∧ (s.countFailed n).start = s.start ∧
      (s.countFailed n).pins = s.pins ∧ (s.countFailed n).chain = s.chain ∧ (s.countFailed n).table = s.table ∧
      (s.countFailed n).pieces = s.pieces ∧ (s.countFailed n).drive = s.drive ∧ (s.countFailed n).frame =
      s.frame ∧ (s.countFailed n).roving = s.roving ∧ (s.countFailed n).line = s.line := by
  simp only [State.countFailed]
  all_goals simp

@[simp] theorem countLapsed_frame (s : State) (n : Nat) :
    (s.countLapsed n).pending = s.pending ∧ (s.countLapsed n).clock = s.clock ∧ (s.countLapsed n).minutesBegun =
      s.minutesBegun ∧ (s.countLapsed n).freeUses = s.freeUses ∧ (s.countLapsed n).start = s.start ∧
      (s.countLapsed n).pins = s.pins ∧ (s.countLapsed n).chain = s.chain ∧ (s.countLapsed n).table = s.table ∧
      (s.countLapsed n).pieces = s.pieces ∧ (s.countLapsed n).drive = s.drive ∧ (s.countLapsed n).frame =
      s.frame ∧ (s.countLapsed n).roving = s.roving ∧ (s.countLapsed n).line = s.line := by
  simp only [State.countLapsed]
  all_goals simp

@[simp] theorem beginVerify_frame (s : State) (c : Call) :
    (s.beginVerify c).pending = s.pending ∧ (s.beginVerify c).clock = s.clock ∧ (s.beginVerify c).minutesBegun =
      s.minutesBegun ∧ (s.beginVerify c).freeUses = s.freeUses ∧ (s.beginVerify c).start = s.start ∧
      (s.beginVerify c).pins = s.pins ∧ (s.beginVerify c).chain = s.chain ∧ (s.beginVerify c).table = s.table ∧
      (s.beginVerify c).drive = s.drive ∧ (s.beginVerify c).frame = s.frame ∧ (s.beginVerify c).roving =
      s.roving ∧ (s.beginVerify c).tally = s.tally ∧ (s.beginVerify c).line = s.line := by
  simp only [State.beginVerify]
  all_goals simp

@[simp] theorem doneFailed_frame (s : State) (c : Call) (b : Bool) :
    (s.doneFailed c b).pending = s.pending ∧ (s.doneFailed c b).clock = s.clock ∧ (s.doneFailed c
      b).minutesBegun = s.minutesBegun ∧ (s.doneFailed c b).start = s.start ∧ (s.doneFailed c b).pins = s.pins ∧
      (s.doneFailed c b).chain = s.chain ∧ (s.doneFailed c b).drive = s.drive ∧ (s.doneFailed c b).frame =
      s.frame := by
  simp only [State.doneFailed]; repeat' split
  all_goals simp

@[simp] theorem takeDone_frame (s : State) (src : Nat) (n : Nat) (sp : Nat) (res : Nat) (rea : Nat) :
    (s.takeDone src n sp res rea).pending = s.pending ∧ (s.takeDone src n sp res rea).clock = s.clock ∧
      (s.takeDone src n sp res rea).minutesBegun = s.minutesBegun ∧ (s.takeDone src n sp res rea).start =
      s.start ∧ (s.takeDone src n sp res rea).pins = s.pins ∧ (s.takeDone src n sp res rea).chain = s.chain ∧
      (s.takeDone src n sp res rea).drive = s.drive ∧ (s.takeDone src n sp res rea).frame = s.frame := by
  simp only [State.takeDone]; repeat' split
  all_goals simp

@[simp] theorem repeatCall_frame (s : State) (c : Call) :
    (s.repeatCall c).pending = s.pending ∧ (s.repeatCall c).clock = s.clock ∧ (s.repeatCall c).minutesBegun =
      s.minutesBegun ∧ (s.repeatCall c).freeUses = s.freeUses ∧ (s.repeatCall c).start = s.start ∧ (s.repeatCall
      c).pins = s.pins ∧ (s.repeatCall c).chain = s.chain ∧ (s.repeatCall c).table = s.table ∧ (s.repeatCall
      c).drive = s.drive ∧ (s.repeatCall c).frame = s.frame ∧ (s.repeatCall c).roving = s.roving := by
  simp only [State.repeatCall]
  all_goals simp

@[simp] theorem withdrawCall_frame (s : State) (c : Call) :
    (s.withdrawCall c).pending = s.pending ∧ (s.withdrawCall c).clock = s.clock ∧ (s.withdrawCall
      c).minutesBegun = s.minutesBegun ∧ (s.withdrawCall c).freeUses = s.freeUses ∧ (s.withdrawCall c).start =
      s.start ∧ (s.withdrawCall c).pins = s.pins ∧ (s.withdrawCall c).chain = s.chain ∧ (s.withdrawCall c).drive
      = s.drive ∧ (s.withdrawCall c).frame = s.frame ∧ (s.withdrawCall c).roving = s.roving := by
  simp only [State.withdrawCall]
  all_goals simp

@[simp] theorem lapseCall_frame (s : State) (c : Call) :
    (s.lapseCall c).pending = s.pending ∧ (s.lapseCall c).clock = s.clock ∧ (s.lapseCall c).minutesBegun =
      s.minutesBegun ∧ (s.lapseCall c).freeUses = s.freeUses ∧ (s.lapseCall c).start = s.start ∧ (s.lapseCall
      c).pins = s.pins ∧ (s.lapseCall c).chain = s.chain ∧ (s.lapseCall c).drive = s.drive ∧ (s.lapseCall
      c).frame = s.frame ∧ (s.lapseCall c).roving = s.roving := by
  simp only [State.lapseCall]
  all_goals simp

@[simp] theorem verifyFails_frame (s : State) (c : Call) :
    (s.verifyFails c).pending = s.pending ∧ (s.verifyFails c).clock = s.clock ∧ (s.verifyFails c).minutesBegun =
      s.minutesBegun ∧ (s.verifyFails c).freeUses = s.freeUses ∧ (s.verifyFails c).start = s.start ∧
      (s.verifyFails c).pins = s.pins ∧ (s.verifyFails c).chain = s.chain ∧ (s.verifyFails c).drive = s.drive ∧
      (s.verifyFails c).frame = s.frame ∧ (s.verifyFails c).roving = s.roving := by
  simp only [State.verifyFails]
  all_goals simp

@[simp] theorem deliveryTick_frame (s : State) :
    (s.deliveryTick).pending = s.pending ∧ (s.deliveryTick).clock = s.clock ∧ (s.deliveryTick).minutesBegun =
      s.minutesBegun ∧ (s.deliveryTick).freeUses = s.freeUses ∧ (s.deliveryTick).start = s.start ∧
      (s.deliveryTick).pins = s.pins ∧ (s.deliveryTick).chain = s.chain ∧ (s.deliveryTick).table = s.table ∧
      (s.deliveryTick).pieces = s.pieces ∧ (s.deliveryTick).frame = s.frame ∧ (s.deliveryTick).roving = s.roving
      ∧ (s.deliveryTick).tally = s.tally ∧ (s.deliveryTick).line = s.line := by
  simp only [State.deliveryTick]
  all_goals simp

@[simp] theorem trimTick_frame (s : State) :
    (s.trimTick).pending = s.pending ∧ (s.trimTick).clock = s.clock ∧ (s.trimTick).minutesBegun = s.minutesBegun
      ∧ (s.trimTick).freeUses = s.freeUses ∧ (s.trimTick).start = s.start ∧ (s.trimTick).pins = s.pins ∧
      (s.trimTick).chain = s.chain ∧ (s.trimTick).table = s.table ∧ (s.trimTick).pieces = s.pieces ∧
      (s.trimTick).roving = s.roving ∧ (s.trimTick).tally = s.tally ∧
      (s.trimTick).line = s.line := by
  simp only [State.trimTick]
  all_goals simp

@[simp] theorem speedTick_frame (s : State) :
    (s.speedTick).pending = s.pending ∧ (s.speedTick).clock = s.clock ∧ (s.speedTick).minutesBegun =
      s.minutesBegun ∧ (s.speedTick).freeUses = s.freeUses ∧ (s.speedTick).start = s.start ∧ (s.speedTick).pins
      = s.pins ∧ (s.speedTick).chain = s.chain ∧ (s.speedTick).table = s.table ∧ (s.speedTick).pieces = s.pieces
      ∧ (s.speedTick).frame = s.frame ∧ (s.speedTick).roving = s.roving ∧ (s.speedTick).tally = s.tally ∧
      (s.speedTick).line = s.line := by
  simp only [State.speedTick]; repeat' split
  all_goals simp

@[simp] theorem restartTick_frame (s : State) (due : Nat) :
    (s.restartTick due).pending = s.pending ∧ (s.restartTick due).clock = s.clock ∧ (s.restartTick
      due).minutesBegun = s.minutesBegun ∧ (s.restartTick due).freeUses = s.freeUses ∧ (s.restartTick due).start
      = s.start ∧ (s.restartTick due).pins = s.pins ∧ (s.restartTick due).chain = s.chain ∧ (s.restartTick
      due).table = s.table ∧ (s.restartTick due).pieces = s.pieces ∧ (s.restartTick due).frame = s.frame ∧
      (s.restartTick due).roving = s.roving ∧ (s.restartTick due).tally = s.tally ∧ (s.restartTick due).line =
      s.line := by
  simp only [State.restartTick]
  all_goals simp

@[simp] theorem tickWork_frame (s : State) :
    (s.tickWork).pending = s.pending ∧ (s.tickWork).clock = s.clock ∧ (s.tickWork).minutesBegun = s.minutesBegun
      ∧ (s.tickWork).start = s.start ∧ (s.tickWork).pins = s.pins ∧ (s.tickWork).chain = s.chain := by
  simp only [State.tickWork]
  all_goals simp

@[simp] theorem minuteCounts_frame (s : State) :
    (s.minuteCounts).pending = s.pending ∧ (s.minuteCounts).clock = s.clock ∧ (s.minuteCounts).minutesBegun =
      s.minutesBegun ∧ (s.minuteCounts).freeUses = s.freeUses ∧ (s.minuteCounts).start = s.start ∧
      (s.minuteCounts).pins = s.pins ∧ (s.minuteCounts).chain = s.chain ∧ (s.minuteCounts).table = s.table ∧
      (s.minuteCounts).pieces = s.pieces ∧ (s.minuteCounts).drive = s.drive ∧ (s.minuteCounts).frame = s.frame ∧
      (s.minuteCounts).roving = s.roving ∧ (s.minuteCounts).line = s.line := by
  simp only [State.minuteCounts]; repeat' split
  all_goals simp

@[simp] theorem beginNotice_frame (s : State) (n : Notice) :
    (s.beginNotice n).pending = s.pending ∧ (s.beginNotice n).clock = s.clock ∧ (s.beginNotice n).minutesBegun =
      s.minutesBegun ∧ (s.beginNotice n).freeUses = s.freeUses ∧ (s.beginNotice n).start = s.start ∧
      (s.beginNotice n).pins = s.pins ∧ (s.beginNotice n).chain = s.chain ∧ (s.beginNotice n).table = s.table ∧
      (s.beginNotice n).pieces = s.pieces ∧ (s.beginNotice n).drive = s.drive ∧ (s.beginNotice n).frame =
      s.frame ∧ (s.beginNotice n).roving = s.roving ∧ (s.beginNotice n).tally = s.tally := by
  simp only [State.beginNotice]; repeat' split
  all_goals simp

@[simp] theorem collide_frame (s : State) (f : SendFlight) :
    (s.collide f).pending = s.pending ∧ (s.collide f).clock = s.clock ∧ (s.collide f).minutesBegun =
      s.minutesBegun ∧ (s.collide f).freeUses = s.freeUses ∧ (s.collide f).start = s.start ∧ (s.collide f).pins
      = s.pins ∧ (s.collide f).chain = s.chain ∧ (s.collide f).table = s.table ∧ (s.collide f).pieces = s.pieces
      ∧ (s.collide f).drive = s.drive ∧ (s.collide f).frame = s.frame ∧ (s.collide f).roving = s.roving := by
  simp only [State.collide]
  all_goals simp

@[simp] theorem jamEnds_frame (s : State) (f : SendFlight) (e : Nat) :
    (s.jamEnds f e).pending = s.pending ∧ (s.jamEnds f e).clock = s.clock ∧ (s.jamEnds f e).minutesBegun =
      s.minutesBegun ∧ (s.jamEnds f e).freeUses = s.freeUses ∧ (s.jamEnds f e).start = s.start ∧ (s.jamEnds f
      e).pins = s.pins ∧ (s.jamEnds f e).chain = s.chain ∧ (s.jamEnds f e).table = s.table ∧ (s.jamEnds f
      e).pieces = s.pieces ∧ (s.jamEnds f e).drive = s.drive ∧ (s.jamEnds f e).frame = s.frame ∧ (s.jamEnds f
      e).roving = s.roving := by
  simp only [State.jamEnds]; repeat' split
  all_goals simp

@[simp] theorem sent_frame (s : State) (e : Nat) :
    (s.sent e).pending = s.pending ∧ (s.sent e).clock = s.clock ∧ (s.sent e).minutesBegun = s.minutesBegun ∧
      (s.sent e).freeUses = s.freeUses ∧ (s.sent e).start = s.start ∧ (s.sent e).pins = s.pins ∧ (s.sent
      e).chain = s.chain ∧ (s.sent e).table = s.table ∧ (s.sent e).pieces = s.pieces ∧ (s.sent e).drive =
      s.drive ∧ (s.sent e).frame = s.frame ∧ (s.sent e).roving = s.roving ∧ (s.sent e).tally = s.tally := by
  simp only [State.sent]
  all_goals simp

@[simp] theorem withPeers_frame (s : State) (p : List Peer) :
    (s.withPeers p).pending = s.pending ∧ (s.withPeers p).clock = s.clock ∧ (s.withPeers p).minutesBegun =
      s.minutesBegun ∧ (s.withPeers p).freeUses = s.freeUses ∧ (s.withPeers p).start = s.start ∧ (s.withPeers
      p).pins = s.pins ∧ (s.withPeers p).chain = s.chain ∧ (s.withPeers p).table = s.table ∧ (s.withPeers
      p).pieces = s.pieces ∧ (s.withPeers p).drive = s.drive ∧ (s.withPeers p).frame = s.frame ∧ (s.withPeers
      p).roving = s.roving ∧ (s.withPeers p).tally = s.tally := by
  simp only [State.withPeers]
  all_goals simp

@[simp] theorem makePeer_frame (s : State) (n : Nat) :
    (s.makePeer n).pending = s.pending ∧ (s.makePeer n).clock = s.clock ∧ (s.makePeer n).minutesBegun =
      s.minutesBegun ∧ (s.makePeer n).freeUses = s.freeUses ∧ (s.makePeer n).start = s.start ∧ (s.makePeer
      n).pins = s.pins ∧ (s.makePeer n).chain = s.chain ∧ (s.makePeer n).table = s.table ∧ (s.makePeer n).pieces
      = s.pieces ∧ (s.makePeer n).drive = s.drive ∧ (s.makePeer n).frame = s.frame ∧ (s.makePeer n).roving =
      s.roving ∧ (s.makePeer n).tally = s.tally := by
  simp only [State.makePeer]; repeat' split
  all_goals simp

@[simp] theorem editPeer_frame (s : State) (n : Nat) (f : Peer → Peer) :
    (s.editPeer n f).pending = s.pending ∧ (s.editPeer n f).clock = s.clock ∧ (s.editPeer n f).minutesBegun =
      s.minutesBegun ∧ (s.editPeer n f).freeUses = s.freeUses ∧ (s.editPeer n f).start = s.start ∧ (s.editPeer n
      f).pins = s.pins ∧ (s.editPeer n f).chain = s.chain ∧ (s.editPeer n f).table = s.table ∧ (s.editPeer n
      f).pieces = s.pieces ∧ (s.editPeer n f).drive = s.drive ∧ (s.editPeer n f).frame = s.frame ∧ (s.editPeer n
      f).roving = s.roving ∧ (s.editPeer n f).tally = s.tally := by
  simp only [State.editPeer]
  all_goals simp

@[simp] theorem learn_frame (s : State) (n : Notice) :
    (s.learn n).pending = s.pending ∧ (s.learn n).clock = s.clock ∧ (s.learn n).minutesBegun = s.minutesBegun ∧
      (s.learn n).freeUses = s.freeUses ∧ (s.learn n).start = s.start ∧ (s.learn n).pins = s.pins ∧ (s.learn
      n).chain = s.chain ∧ (s.learn n).table = s.table ∧ (s.learn n).pieces = s.pieces ∧ (s.learn n).drive =
      s.drive ∧ (s.learn n).frame = s.frame ∧ (s.learn n).roving = s.roving ∧ (s.learn n).tally = s.tally := by
  simp only [State.learn]
  all_goals simp

@[simp] theorem testHold_frame (s : State) :
    (s.testHold).pending = s.pending ∧ (s.testHold).clock = s.clock ∧ (s.testHold).minutesBegun = s.minutesBegun
      ∧ (s.testHold).freeUses = s.freeUses ∧ (s.testHold).start = s.start ∧ (s.testHold).pins = s.pins ∧
      (s.testHold).chain = s.chain ∧ (s.testHold).table = s.table ∧ (s.testHold).pieces = s.pieces ∧
      (s.testHold).drive = s.drive ∧ (s.testHold).frame = s.frame ∧ (s.testHold).roving = s.roving := by
  simp only [State.testHold]; repeat' split
  all_goals simp

@[simp] theorem peerHolds_frame (s : State) (n : Nat) (t : Nat) :
    (s.peerHolds n t).pending = s.pending ∧ (s.peerHolds n t).clock = s.clock ∧ (s.peerHolds n t).minutesBegun =
      s.minutesBegun ∧ (s.peerHolds n t).freeUses = s.freeUses ∧ (s.peerHolds n t).start = s.start ∧
      (s.peerHolds n t).pins = s.pins ∧ (s.peerHolds n t).chain = s.chain ∧ (s.peerHolds n t).table = s.table ∧
      (s.peerHolds n t).pieces = s.pieces ∧ (s.peerHolds n t).drive = s.drive ∧ (s.peerHolds n t).frame =
      s.frame ∧ (s.peerHolds n t).roving = s.roving ∧ (s.peerHolds n t).tally = s.tally := by
  simp only [State.peerHolds]; repeat' split
  all_goals simp

@[simp] theorem takeNotice_frame (s : State) (n : Notice) :
    (s.takeNotice n).pending = s.pending ∧ (s.takeNotice n).clock = s.clock ∧ (s.takeNotice n).minutesBegun =
      s.minutesBegun ∧ (s.takeNotice n).start = s.start ∧ (s.takeNotice n).pins = s.pins ∧ (s.takeNotice
      n).chain = s.chain := by
  simp only [State.takeNotice]; repeat' split
  all_goals simp

@[simp] theorem makeBusy_frame (s : State) (block : Block) :
    (s.makeBusy block).pending = s.pending ∧ (s.makeBusy block).clock = s.clock ∧ (s.makeBusy block).minutesBegun =
      s.minutesBegun ∧ (s.makeBusy block).freeUses = s.freeUses ∧ (s.makeBusy block).start = s.start ∧ (s.makeBusy
      block).pins = s.pins ∧ (s.makeBusy block).chain = s.chain ∧ (s.makeBusy block).table = s.table ∧ (s.makeBusy
      block).pieces = s.pieces ∧ (s.makeBusy block).drive = s.drive ∧ (s.makeBusy block).frame = s.frame ∧
      (s.makeBusy block).roving = s.roving ∧ (s.makeBusy block).tally = s.tally := by
  simp [State.makeBusy]

@[simp] theorem handHead_frame (s : State) (n : Notice) (rest : List Notice) (b : Block) :
    (s.handHead n rest b).pending = s.pending ∧ (s.handHead n rest b).clock = s.clock ∧ (s.handHead n rest
      b).minutesBegun = s.minutesBegun ∧ (s.handHead n rest b).start = s.start ∧ (s.handHead n rest b).pins =
      s.pins ∧ (s.handHead n rest b).chain = s.chain := by
  simp only [State.handHead]
  all_goals simp

@[simp] theorem handHeads_frame (s : State) (k : Nat) :
    (State.handHeads k s).pending = s.pending ∧ (State.handHeads k s).clock = s.clock ∧ (State.handHeads k
      s).minutesBegun = s.minutesBegun ∧ (State.handHeads k s).start = s.start ∧ (State.handHeads k s).pins =
      s.pins ∧ (State.handHeads k s).chain = s.chain := by
  induction k generalizing s with
  | zero => simp [State.handHeads]
  | succ k ih =>
    unfold State.handHeads
    repeat' split
    all_goals simp [ih]

@[simp] theorem placeInbound_frame (s : State) (n : Notice) :
    (s.placeInbound n).pending = s.pending ∧ (s.placeInbound n).clock = s.clock ∧ (s.placeInbound
      n).minutesBegun = s.minutesBegun ∧ (s.placeInbound n).freeUses = s.freeUses ∧ (s.placeInbound n).start =
      s.start ∧ (s.placeInbound n).pins = s.pins ∧ (s.placeInbound n).chain = s.chain ∧ (s.placeInbound n).table
      = s.table ∧ (s.placeInbound n).pieces = s.pieces ∧ (s.placeInbound n).drive = s.drive ∧ (s.placeInbound
      n).frame = s.frame ∧ (s.placeInbound n).roving = s.roving := by
  simp only [State.placeInbound]; repeat' split
  all_goals simp

@[simp] theorem queueInbound_frame (s : State) (n : Notice) :
    (s.queueInbound n).pending = s.pending ∧ (s.queueInbound n).clock = s.clock ∧ (s.queueInbound
      n).minutesBegun = s.minutesBegun ∧ (s.queueInbound n).start = s.start ∧ (s.queueInbound n).pins = s.pins ∧
      (s.queueInbound n).chain = s.chain := by
  simp only [State.queueInbound]; repeat' split
  all_goals simp

@[simp] theorem freshHello_frame (s : State) (src : Nat) :
    (s.freshHello src).pending = s.pending ∧ (s.freshHello src).clock = s.clock ∧ (s.freshHello
      src).minutesBegun = s.minutesBegun ∧ (s.freshHello src).freeUses = s.freeUses ∧ (s.freshHello src).start =
      s.start ∧ (s.freshHello src).pins = s.pins ∧ (s.freshHello src).chain = s.chain ∧ (s.freshHello src).table
      = s.table ∧ (s.freshHello src).pieces = s.pieces ∧ (s.freshHello src).drive = s.drive := by
  simp only [State.freshHello]; repeat' split
  all_goals simp

@[simp] theorem accept_frame (s : State) (n : Notice) :
    (s.accept n).pending = s.pending ∧ (s.accept n).clock = s.clock ∧ (s.accept n).minutesBegun = s.minutesBegun
      ∧ (s.accept n).start = s.start ∧ (s.accept n).pins = s.pins ∧ (s.accept n).chain = s.chain := by
  simp only [State.accept]; repeat' split
  all_goals simp

@[simp] theorem receiveError_frame (s : State) :
    (s.receiveError).pending = s.pending ∧ (s.receiveError).clock = s.clock ∧ (s.receiveError).minutesBegun =
      s.minutesBegun ∧ (s.receiveError).freeUses = s.freeUses ∧ (s.receiveError).start = s.start ∧
      (s.receiveError).pins = s.pins ∧ (s.receiveError).chain = s.chain ∧ (s.receiveError).table = s.table ∧
      (s.receiveError).pieces = s.pieces ∧ (s.receiveError).drive = s.drive ∧ (s.receiveError).frame = s.frame ∧
      (s.receiveError).roving = s.roving ∧ (s.receiveError).line = s.line := by
  simp only [State.receiveError]
  all_goals simp

@[simp] theorem hear_frame (s : State) :
    (s.hear).pending = s.pending ∧ (s.hear).clock = s.clock ∧ (s.hear).minutesBegun = s.minutesBegun ∧
      (s.hear).freeUses = s.freeUses ∧ (s.hear).start = s.start ∧ (s.hear).pins = s.pins ∧ (s.hear).chain =
      s.chain ∧ (s.hear).table = s.table ∧ (s.hear).pieces = s.pieces ∧ (s.hear).drive = s.drive ∧
      (s.hear).frame = s.frame ∧ (s.hear).roving = s.roving ∧ (s.hear).tally = s.tally := by
  simp only [State.hear]
  all_goals simp

@[simp] theorem goodNotice_frame (s : State) (n : Notice) :
    (s.goodNotice n).pending = s.pending ∧ (s.goodNotice n).clock = s.clock ∧ (s.goodNotice n).minutesBegun =
      s.minutesBegun ∧ (s.goodNotice n).start = s.start ∧ (s.goodNotice n).pins = s.pins ∧ (s.goodNotice
      n).chain = s.chain := by
  simp only [State.goodNotice]; repeat' split
  all_goals simp

@[simp] theorem lineFalls_frame (s : State) :
    (s.lineFalls).pending = s.pending ∧ (s.lineFalls).clock = s.clock ∧ (s.lineFalls).minutesBegun =
      s.minutesBegun ∧ (s.lineFalls).freeUses = s.freeUses ∧ (s.lineFalls).start = s.start ∧ (s.lineFalls).pins
      = s.pins ∧ (s.lineFalls).chain = s.chain ∧ (s.lineFalls).table = s.table ∧ (s.lineFalls).pieces = s.pieces
      ∧ (s.lineFalls).drive = s.drive ∧ (s.lineFalls).frame = s.frame ∧ (s.lineFalls).roving = s.roving ∧
      (s.lineFalls).tally = s.tally := by
  simp only [State.lineFalls]
  all_goals simp

@[simp] theorem receiveBytes_frame (s : State) (l : List Byte) :
    (s.receiveBytes l).pending = s.pending ∧ (s.receiveBytes l).clock = s.clock ∧ (s.receiveBytes
      l).minutesBegun = s.minutesBegun ∧ (s.receiveBytes l).start = s.start ∧ (s.receiveBytes l).pins = s.pins ∧
      (s.receiveBytes l).chain = s.chain := by
  simp only [State.receiveBytes]; repeat' split
  all_goals simp

end Sys2Proof.Machine
end

