-- ==== Sys2Proof/Laws/Modes.lean ====
section
/-! SUPPORT. The state as a command finds it, and everything that ending all calls, leaving the calling modes and a change
of mode can do. -/

namespace Sys2Proof.Machine

/-! ## The moment of a command -/

section

variable (s : State) (t : Nat)

@[simp] theorem later_start : (s.later t).start = s.start := rfl
@[simp] theorem later_frame : (s.later t).frame = s.frame := rfl
@[simp] theorem later_drive : (s.later t).drive = s.drive := rfl
@[simp] theorem later_pins : (s.later t).pins = s.pins := rfl
@[simp] theorem later_clock : (s.later t).clock = max s.clock t := rfl
@[simp] theorem later_line : (s.later t).line = s.line := rfl
@[simp] theorem later_roving : (s.later t).roving = s.roving := rfl
@[simp] theorem later_table : (s.later t).table = s.table := rfl
@[simp] theorem later_pieces : (s.later t).pieces = s.pieces := rfl
@[simp] theorem later_tally : (s.later t).tally = s.tally := rfl
@[simp] theorem later_chain : (s.later t).chain = s.chain := rfl
@[simp] theorem later_cfg : (s.later t).cfg = s.cfg := rfl
@[simp] theorem later_pending : (s.later t).pending = s.pending := rfl
@[simp] theorem later_minutesBegun : (s.later t).minutesBegun = s.minutesBegun := rfl

end

theorem reach_later {s : State} (t : Nat) (off : s.start.phase ≠ .off) (inReset : s.start.phase ≠ .inReset) :
    s.reach t = s.later t := by
  rw [reach_of_runs t (by simp [State.clockRuns, off, inReset])]
  rfl

theorem whileActive_later {s : State} (t : Nat) (f : State → State) (h : s.start.phase = .active) :
    s.whileActive t f = f (s.later t) := by
  rw [whileActive_of_active t f h]
  rfl

theorem whileListening_later {s : State} (t : Nat) (f : State → State) (h : s.underWay) :
    s.whileListening t f = f (s.later t) := by
  rw [whileListening_of_listens t f (listens_iff.mpr h)]
  rfl

/-! ## Handed notices and inputs -/

theorem surelyDone_iff (block : Block) (since now : Nat) :
    surelyDone block since now = true ↔ ¬mayBeBusy block since now := by
  cases block <;> simp only [surelyDone, mayBeBusy, reduceCtorEq, if_true, if_false, Nat.not_lt, Nat.not_le] <;>
    exact decide_eq_true_iff

theorem blockFree_iff (s : State) (block : Block) :
    s.blockFree block = true ↔ ∀ u, s.line.busy.of block = some u → ¬mayBeBusy block u s.clock := by
  unfold State.blockFree
  split
  · next h => simp [h]
  · next u h => simp [h, surelyDone_iff]

/-- A row that is the taking of a handed notice acts on the state with its block busy. -/
theorem whileHanded_handed {s : State} {t : Nat} {block : Block} (f : State → State) (h : s.start.phase = .active)
    (free : s.canHand t block) : s.whileHanded t block f = f (s.handed t block) := by
  have hf : (s.later t).blockFree block = true := (blockFree_iff _ _).mpr free.2
  have hi : (s.later t).line.inbound.isEmpty = true := by simp [free.1]
  unfold State.whileHanded
  rw [whileActive_later t _ h, hi, hf]
  rfl

/-- While its block may be busy, or a notice waits, it changes the clock alone. -/
theorem whileHanded_waits {s : State} {t : Nat} {block : Block} (f : State → State) (h : s.start.phase = .active)
    (busy : ¬s.canHand t block) : s.whileHanded t block f = s.later t := by
  unfold State.whileHanded
  rw [whileActive_later t _ h, if_neg]
  intro hc
  obtain ⟨hi, hf⟩ := (Bool.and_eq_true _ _).mp hc
  exact busy ⟨List.isEmpty_iff.mp hi, (blockFree_iff _ _).mp hf⟩

theorem levelChanges_iff {s : State} {t : Nat} {i : Input} {level : Bool} (runs : s.clockRuns = true) :
    (s.later t).levelChanges i level = true ↔ s.mayChange t i level := by
  have hr : (s.later t).clockRuns = true := runs
  unfold State.levelChanges State.mayChange
  rw [hr]
  simp only [later_pins, later_clock, Bool.and_eq_true, bne_iff_ne, Bool.not_true, Bool.false_or]
  refine and_congr Iff.rfl ?_
  cases h : s.pins.changes.of i with
  | none => exact ⟨fun _ _ hu => (nomatch hu), fun _ => rfl⟩
  | some u =>
    refine Iff.trans decide_eq_true_iff ⟨fun hc v hv => ?_, fun hc => hc u rfl⟩
    cases hv
    exact hc

/-- A change of an input that can be taken is acted on while the part is active. -/
theorem onChange_changed {s : State} {t : Nat} {i : Input} {level : Bool} (act : State → State)
    (h : s.start.phase = .active) (may : s.mayChange t i level) : s.onChange t i level act = act (s.changed t i level) := by
  have runs := clockRuns_of_active h
  have hc : (s.later t).clockRuns = true := runs
  have hr : s.reach t = s.later t := by rw [reach_of_runs t runs]; rfl
  have ha : (s.later t).active = true := by simp [State.active, h]
  unfold State.onChange
  simp only [hr, (levelChanges_iff runs).mpr may, hc, if_true, ha]
  rfl

/-- In the other phases in which part time runs it changes the pins alone. -/
theorem onChange_unwatched {s : State} {t : Nat} {i : Input} {level : Bool} (act : State → State)
    (runs : s.clockRuns = true) (h : s.start.phase ≠ .active) (may : s.mayChange t i level) :
    s.onChange t i level act = s.changed t i level := by
  have hc : (s.later t).clockRuns = true := runs
  have hr : s.reach t = s.later t := by rw [reach_of_runs t runs]; rfl
  have ha : (s.later t).active = false := by simp [State.active, h]
  unfold State.onChange
  simp only [hr, (levelChanges_iff runs).mpr may, hc, if_true, ha, Bool.false_eq_true, if_false]
  rfl

/-- A level that stands already, or that comes before the 10 ms are over, changes the clock alone. -/
theorem onChange_stays {s : State} {t : Nat} {i : Input} {level : Bool} (act : State → State)
    (runs : s.clockRuns = true) (not : ¬s.mayChange t i level) : s.onChange t i level act = s.later t := by
  have hr : s.reach t = s.later t := by rw [reach_of_runs t runs]; rfl
  have hl : (s.later t).levelChanges i level = false := by
    rw [← Bool.not_eq_true, levelChanges_iff runs]
    exact not
  unfold State.onChange
  simp only [hr, hl, Bool.false_eq_true, if_false]

theorem calling_iff (m : FrameMode) : calling m = true ↔ opensCalls m := by simp [calling, opensCalls]

/-! ## Handing a notice -/

/-- A FORECAST that is handed stands in the routine queue, unless that queue is full (R167, R168). -/
theorem mem_routine_of_forecast (s : State) (n : Notice) (h : n.kind = some .forecast) :
    n ∈ (s.hand n).line.routine ∨ 12 ≤ (s.hand n).line.routine.length := by
  have hu : n.urgent = false := by simp [Notice.urgent, h, Kind.urgent]
  unfold State.hand
  cases hj : joinQueue n s.line.routine with
  | none =>
    right
    unfold joinQueue at hj
    split at hj
    · cases hj
    · split at hj
      · cases hj
      · next hl =>
        simp only [hu, Bool.false_eq_true, if_false, Config.outboundSlots] at hl ⊢
        exact Nat.not_lt.mp hl
  | some q =>
    left
    unfold joinQueue at hj
    split at hj
    · next hx =>
      obtain ⟨x, hx1, hx2⟩ := List.any_eq_true.mp hx
      injection hj with hj
      subst hj
      simp only [hu, Bool.false_eq_true, if_false]
      exact List.mem_map.mpr ⟨x, hx1, by simp [hx2]⟩
    · split at hj
      · injection hj with hj
        subst hj
        simp [hu]
      · cases hj

/-- Handing a notice raises at most the send-failures count. -/
@[simp] theorem hand_exceptSendFailures (s : State) (n : Notice) :
    (s.hand n).tally.exceptSendFailures = s.tally.exceptSendFailures := by
  rcases hand_cases s n with ⟨_, q, _, h⟩ | ⟨_, q, _, h⟩ | h <;> rw [h] <;> rfl

@[simp] theorem endCall_exceptSendFailures (s : State) (reason : CloseReason) (c : Call) :
    (s.endCall reason c).tally.exceptSendFailures = s.tally.exceptSendFailures := by
  unfold State.endCall
  rw [hand_exceptSendFailures]
  rfl

/-! ## Ending every call (R81) -/

/-- The calls that are left when some calls end one after another. -/
theorem endCalls_left (reason : CloseReason) (l : List Call) : ∀ s : State,
    (l.foldl (fun s c => s.endCall reason c) s).pieces.calls =
      s.pieces.calls.filter (fun c => l.all (fun d => c.number != d.number)) := by
  induction l with
  | nil => intro s; exact (List.filter_eq_self.mpr (fun _ _ => rfl)).symm
  | cons a l ih =>
    intro s
    rw [List.foldl_cons, ih]
    simp [State.endCall, State.freeCall, State.withCalls, List.filter_filter, Bool.and_comm]

/-- The spindles of some calls are released, the others stay as they are. -/
theorem releaseSpindles_spindle (l : List Call) : ∀ (s : State) (n : Nat),
    (l.foldl (fun s c => s.releaseSpindle c.spindle none) s).spindle n =
      if n ∈ l.map (fun c => c.spindle) then
        (s.spindle n).map (fun r => { r.enter .down with call := none, notBefore := none })
      else s.spindle n := by
  induction l with
  | nil => simp
  | cons a l ih =>
    intro s n
    rw [List.foldl_cons, ih]
    simp only [State.releaseSpindle, spindle_editSpindle, List.map_cons, List.mem_cons]
    by_cases h1 : n = a.spindle
    · subst h1
      by_cases h2 : a.spindle ∈ l.map (fun c => c.spindle)
      · simp only [h2, if_true, or_true]
        cases s.spindle a.spindle <;> simp [SpindleRec.enter]
      · simp [h2]
    · simp [h1]

/-- R81: what ending every call does. -/
theorem cancelAll_effect (s : State) :
    s.cancelAll.pieces.calls = [] ∧ s.cancelAll.pieces.serial = s.pieces.serial ∧
      s.cancelAll.table.breakList = s.table.breakList ∧
      s.cancelAll.tally.exceptSendFailures = s.tally.exceptSendFailures ∧
      ∀ n, s.cancelAll.spindle n =
        if n ∈ s.pieces.calls.map (fun c => c.spindle) then
          (s.spindle n).map (fun r => { r.enter .down with call := none, notBefore := none })
        else s.spindle n := by
  have keeps : ∀ (s : State) (c : Call), (s.releaseSpindle c.spindle none).pieces = s.pieces := by
    intros
    simp
  refine ⟨?_, ?_, ?_, ?_, ?_⟩
  · unfold State.cancelAll
    rw [foldl_keeps State.pieces _ keeps]
    simp only [State.endCalls, State.withFreeUses]
    rw [endCalls_left, List.filter_eq_nil_iff]
    intro a ha
    simp only [List.all_eq_true, bne_iff_ne, ne_eq]
    intro h
    exact h a ((sortBy_perm _ _).mem_iff.mpr ha) rfl
  · unfold State.cancelAll
    rw [foldl_keeps State.pieces _ keeps]
    exact foldl_keeps (fun s : State => s.pieces.serial) (fun s c => s.endCall .cancelled c)
      (by intro s a; simp [State.endCall, State.freeCall, State.withCalls]) _ s
  · unfold State.cancelAll
    rw [foldl_keeps (fun s : State => s.table.breakList) (fun s (c : Call) => s.releaseSpindle c.spindle none)
      (by intro s a; simp [State.releaseSpindle])]
    simp
  · unfold State.cancelAll
    rw [foldl_keeps (fun s : State => s.tally.exceptSendFailures) (fun s (c : Call) => s.releaseSpindle c.spindle none)
      (by intro s a; simp)]
    exact foldl_keeps (fun s : State => s.tally.exceptSendFailures) (fun s c => s.endCall .cancelled c)
      (by intro s a; simp) _ s
  · intro n
    unfold State.cancelAll
    rw [releaseSpindles_spindle]
    have h : (s.endCalls .cancelled s.pieces.calls).spindle n = s.spindle n := by simp [State.spindle]
    rw [h]

/-! ## The notices of a change of mode -/

/-- Where some notices go depends on the line unit and the tally unit alone. -/
theorem handAll_agrees (l : List Notice) : ∀ s s' : State, s.line = s'.line → s.tally = s'.tally →
    (s.handAll l).line = (s'.handAll l).line ∧ (s.handAll l).tally = (s'.handAll l).tally := by
  induction l with
  | nil => exact fun s s' hl ht => ⟨hl, ht⟩
  | cons n l ih =>
    intro s s' hl ht
    exact ih _ _ (hand_agrees n hl ht).1 (hand_agrees n hl ht).2

theorem handAll_append (s : State) (l m : List Notice) : s.handAll (l ++ m) = (s.handAll l).handAll m := by
  simp [State.handAll]

/-- The notice that ends a call, by the code of its reason (R70, R77, R202). -/
theorem endNotice_eq (s : State) (c : Call) (reason : CloseReason) :
    s.endNotice c reason = s.endingNotice (BitVec.ofNat 8 reason.code) c := by
  unfold State.endNotice State.endingNotice
  cases c.state <;> rfl

/-- Calls that end one after another hand their notices in that order. -/
theorem endCalls_notices (reason : CloseReason) (code : Byte) (h : BitVec.ofNat 8 reason.code = code) (l : List Call) :
    ∀ s : State,
      (l.foldl (fun s c => s.endCall reason c) s).line = (s.handAll (l.map (s.endingNotice code))).line ∧
        (l.foldl (fun s c => s.endCall reason c) s).tally = (s.handAll (l.map (s.endingNotice code))).tally := by
  induction l with
  | nil => exact fun s => ⟨rfl, rfl⟩
  | cons c l ih =>
    intro s
    have one : (s.endCall reason c).line = (s.hand (s.endingNotice code c)).line ∧
        (s.endCall reason c).tally = (s.hand (s.endingNotice code c)).tally := by
      rw [← h, ← endNotice_eq]
      exact hand_agrees _ (by simp) (by simp)
    have same : (s.endCall reason c).endingNotice code = s.endingNotice code := by
      funext d
      simp [State.endingNotice]
    obtain ⟨h1, h2⟩ := ih (s.endCall reason c)
    obtain ⟨h3, h4⟩ := handAll_agrees (l.map (s.endingNotice code)) _ _ one.1 one.2
    rw [same] at h1 h2
    exact ⟨h1.trans h3, h2.trans h4⟩

/-- Live calls in order of opened-at (R63): the same calls, oldest first. -/
theorem inOrder_oldestFirst (s : State) (calls : List Call) :
    (s.inOrder calls).Perm calls ∧ (s.inOrder calls).Pairwise (fun a b => a.openedAt ≤ b.openedAt) := by
  refine ⟨sortBy_perm _ _, sortBy_pairwise (R := fun a b : Call => a.openedAt ≤ b.openedAt) (fun _ _ _ => Nat.le_trans)
    (fun a b h => ?_) (fun a b h => ?_) _⟩
  · simp only [callBefore, Bool.or_eq_true, Bool.and_eq_true, decide_eq_true_eq, beq_iff_eq] at h
    omega
  · simp only [callBefore, Bool.or_eq_false_iff, decide_eq_false_iff_not] at h
    omega

/-- R63, R81: ending every call hands a notice for each, oldest opened-at first. -/
theorem cancelAll_notices (s : State) : ∃ ended : List Call, ended.Perm s.pieces.calls ∧
    ended.Pairwise (fun a b => a.openedAt ≤ b.openedAt) ∧
    s.cancelAll.line = (s.handAll (ended.map (s.endingNotice 4#8))).line ∧
    s.cancelAll.tally = (s.handAll (ended.map (s.endingNotice 4#8))).tally := by
  refine ⟨s.inOrder s.pieces.calls, (inOrder_oldestFirst s _).1, (inOrder_oldestFirst s _).2, ?_, ?_⟩
  · unfold State.cancelAll
    rw [foldl_keeps State.line (fun s (c : Call) => s.releaseSpindle c.spindle none) (by intro s a; simp) _ _]
    exact (endCalls_notices .cancelled 4#8 rfl _ s).1
  · unfold State.cancelAll
    rw [foldl_keeps State.tally (fun s (c : Call) => s.releaseSpindle c.spindle none) (by intro s a; simp) _ _]
    exact (endCalls_notices .cancelled 4#8 rfl _ s).2

/-- R92, R95: the entry actions of a mode hand a claim at an entry to FULL-STOP with none standing, and no more. -/
theorem entered_notices (s : State) (new : FrameMode) (reason : Option StopReason) :
    ((s.placeMode new reason).entryActions new).line =
        (s.handAll (if new = .fullStop ∧ s.frame.claim.state = .none then [s.fullStopClaim] else [])).line ∧
      ((s.placeMode new reason).entryActions new).tally =
        (s.handAll (if new = .fullStop ∧ s.frame.claim.state = .none then [s.fullStopClaim] else [])).tally := by
  by_cases hn : new = .fullStop
  · subst hn
    by_cases hc : s.frame.claim.state = .none
    · simp only [hc, true_and, if_true]
      have claim : ∀ u : State, u.line = s.line → u.tally = s.tally → u.frame.mode = .fullStop → u.drive = s.drive →
          u.start = s.start →
          (u.makeClaim .none).line = (s.handAll [s.fullStopClaim]).line ∧
            (u.makeClaim .none).tally = (s.handAll [s.fullStopClaim]).tally := by
        intro u hl ht hm hd hs
        have same : (u.withFrame { u.frame with
            claim := { state := .claimed, position := none, eta := none, lastAnswer := .none, retries := 1,
                       answerDue := some (u.clock + Config.claimWait), pause := none },
            trim := 0 }).claimNotice = s.fullStopClaim := by
          simp [State.claimNotice, State.fullStopClaim, State.notice, State.cfg, ClaimAnswer.bytes, byteField, modeCode,
            wordField, hm, hd, hs]
        unfold State.makeClaim
        simp only [same]
        exact hand_agrees _ hl ht
      unfold State.entryActions State.enterFullStop
      simp only [State.placeMode, withFrame_frame, hc, if_true]
      split
      · simp only [withFrame_line, withFrame_tally]
        exact claim _ rfl rfl rfl rfl rfl
      · exact claim _ rfl rfl rfl rfl rfl
    · simp only [hc, and_false, if_false, State.handAll, List.foldl_nil]
      unfold State.entryActions State.enterFullStop
      simp only [State.placeMode, withFrame_frame, hc, if_false]
      split <;> exact ⟨rfl, rfl⟩
  · have none : ¬(new = .fullStop ∧ s.frame.claim.state = .none) := fun h => hn h.1
    rw [if_neg none]
    cases new <;> first | exact absurd rfl hn | exact ⟨rfl, rfl⟩

/-- R108, R109: a claim that is made: the record and the DOFF-CLAIM that is handed. -/
theorem makeClaim_claimed (s : State) (answer : ClaimAnswer) : s.makeClaim answer = s.claimed answer := by
  cases answer <;> rfl

/-! ## Leaving the calling modes and a change of mode (R92) -/

/-- R92: what reporting the leaving of RUNNING and RESTART does. -/
theorem leaveCalling_effect (s : State) (new : FrameMode) :
    (opensCalls s.frame.mode → ¬opensCalls new →
      (s.leaveCalling new).pieces.calls = [] ∧ (s.leaveCalling new).frame = { s.frame with trim := 0 } ∧
        ∀ n r, s.spindle n = some r → (r.state = .called ∨ r.state = .taken) →
          n ∈ s.pieces.calls.map (fun c => c.spindle) →
          (s.leaveCalling new).spindle n = some { r with state := .down, call := none, notBefore := none }) ∧
    ((opensCalls s.frame.mode → opensCalls new) → s.leaveCalling new = s) ∧
    (∀ n, n ∉ s.pieces.calls.map (fun c => c.spindle) → (s.leaveCalling new).spindle n = s.spindle n) ∧
    (s.leaveCalling new).table.breakList = s.table.breakList ∧
    (s.leaveCalling new).pieces.serial = s.pieces.serial ∧
    (s.leaveCalling new).tally.exceptSendFailures = s.tally.exceptSendFailures := by
  obtain ⟨noCalls, serial, breaks, counts, spindles⟩ := cancelAll_effect (s.withFrame { s.frame with trim := 0 })
  by_cases h : opensCalls s.frame.mode ∧ ¬opensCalls new
  · have e : s.leaveCalling new = (s.withFrame { s.frame with trim := 0 }).cancelAll := by
      have : calling new = false := by rw [← Bool.not_eq_true, calling_iff]; exact h.2
      simp [State.leaveCalling, (calling_iff _).mpr h.1, this]
    rw [e]
    refine ⟨fun _ _ => ⟨noCalls, by simp, ?_⟩, fun k => absurd (k h.1) h.2, ?_, breaks, serial, counts⟩
    · intro n r hr hs hm
      rw [spindles]
      have hr' : (s.withFrame { s.frame with trim := 0 }).spindle n = some r := hr
      simp only [withFrame_pieces, hm, if_true, hr', Option.map_some]
      have kept : ((r.state == .up) == (SpindleState.down == .up)) = true := by
        rcases hs with hs | hs <;> rw [hs] <;> rfl
      simp only [SpindleRec.enter, kept, if_true]
    · intro n hn
      rw [spindles]
      simp only [withFrame_pieces, hn, if_false]
      rfl
  · have e : s.leaveCalling new = s := by
      unfold State.leaveCalling
      by_cases h1 : opensCalls s.frame.mode
      · have h2 : opensCalls new := by
          by_cases h2 : opensCalls new
          · exact h2
          · exact absurd ⟨h1, h2⟩ h
        simp [(calling_iff _).mpr h2]
      · have : calling s.frame.mode = false := by rw [← Bool.not_eq_true, calling_iff]; exact h1
        simp [this]
    rw [e]
    exact ⟨fun a b => absurd ⟨a, b⟩ h, fun _ => rfl, fun _ _ => rfl, rfl, rfl, rfl⟩

/-- R92, R94, R95, R98: the frame unit after the entry actions of a mode. -/
theorem placed_frame (s : State) (new : FrameMode) (reason : Option StopReason)
    (plain : new = .fullStop → reason = none) :
    ((s.placeMode new reason).entryActions new).frame =
      { s.frame with
        mode := s.endsIn new
        reason := reason
        graceDue := if s.endsIn new = .restart then some (s.clock + 1000000 * s.cfg.restartGrace) else none
        positionDue := if s.endsIn new = .fullStop then some (s.clock + 1000000 * s.cfg.positionTimeout) else none
        doffingDue := if s.endsIn new = .doffing then some (s.clock + 60000000 * s.cfg.doffingTimeout) else none
        claim := if new = .fullStop ∧ s.frame.claim.state = .none then Claim.madeAt s.clock .none else s.frame.claim
        trim := if new = .fullStop ∧ s.frame.claim.state = .none then 0 else s.frame.trim } := by
  by_cases hn : new = .fullStop
  · have hr := plain hn
    subst hn hr
    by_cases hc : s.frame.claim.state = .none <;> cases ha : s.pins.atDoff <;>
      simp [State.entryActions, State.enterFullStop, State.placeMode, State.endsIn, State.makeClaim, hc, ha,
        Claim.madeAt, Config.claimWait]
  · cases new <;> first | exact absurd rfl hn | simp [State.entryActions, State.placeMode, State.endsIn]

/-- The entry actions leave every unit but the frame unit, the line unit and the send-failures count. -/
theorem entryActions_counts (s : State) (new : FrameMode) :
    (s.entryActions new).tally.exceptSendFailures = s.tally.exceptSendFailures := by
  cases new <;> try rfl
  simp only [State.entryActions, State.enterFullStop]
  split <;> split <;> simp [State.makeClaim, State.placeMode]

/-- R55, R57, R59: what the delivery and drive unit makes of a mode in which no call is opened. -/
theorem enterMode_standing (u : DriveUnit) (c : Settings) (trim : Nat) (old new : FrameMode) (h : ¬opensCalls new) :
    u.enterMode c trim old new =
      { u with dutyWaiting := if new = .fullStop then dutyOf c u.speed else 0 } := by
  cases new <;> first | exact absurd (Or.inl rfl) h | exact absurd (Or.inr rfl) h | rfl

/-- The forecasts and the fill are no business of a change of mode. -/
theorem enterMode_measured (u : DriveUnit) (c : Settings) (trim : Nat) (old new : FrameMode) :
    (u.enterMode c trim old new).measured = u.measured := by
  cases new <;> rfl

/-- R103: building a FORECAST leaves it in the routine queue, unless that queue is full. -/
theorem buildForecast_handed (s : State) :
    s.buildForecast.forecastNotice ∈ s.buildForecast.line.routine ∨ 12 ≤ s.buildForecast.line.routine.length := by
  have same : s.buildForecast.forecastNotice = s.forecastNotice := by
    simp [State.forecastNotice, State.buildForecast, State.notice, State.cfg]
  rw [same]
  exact mem_routine_of_forecast _ _ rfl

/-- R81, R92, R95, R103: the notices that a change of mode hands, in their order. -/
theorem changeMode_notices (s : State) (new : FrameMode) (reason : Option StopReason) :
    ∃ ended : List Call, (opensCalls s.frame.mode → ¬opensCalls new → ended.Perm s.pieces.calls) ∧
      ((opensCalls s.frame.mode → opensCalls new) → ended = []) ∧
      ended.Pairwise (fun a b => a.openedAt ≤ b.openedAt) ∧
      ∀ notices, notices = ended.map (s.endingNotice 4#8) ++
          (if new = .fullStop ∧ s.frame.claim.state = .none then [s.fullStopClaim] else []) ++
          [(s.changeMode new reason).forecastNotice] →
        (s.changeMode new reason).line = (s.handAll notices).line ∧
          (s.changeMode new reason).tally = (s.handAll notices).tally := by
  have leaving : ∃ ended : List Call, (opensCalls s.frame.mode → ¬opensCalls new → ended.Perm s.pieces.calls) ∧
      ((opensCalls s.frame.mode → opensCalls new) → ended = []) ∧
      ended.Pairwise (fun a b => a.openedAt ≤ b.openedAt) ∧
      (s.leaveCalling new).line = (s.handAll (ended.map (s.endingNotice 4#8))).line ∧
      (s.leaveCalling new).tally = (s.handAll (ended.map (s.endingNotice 4#8))).tally := by
    by_cases h : opensCalls s.frame.mode ∧ ¬opensCalls new
    · have e : s.leaveCalling new = (s.withFrame { s.frame with trim := 0 }).cancelAll := by
        have : calling new = false := by rw [← Bool.not_eq_true, calling_iff]; exact h.2
        simp [State.leaveCalling, (calling_iff _).mpr h.1, this]
      obtain ⟨ended, perm, sorted, line, tally⟩ := cancelAll_notices (s.withFrame { s.frame with trim := 0 })
      have same : (s.withFrame { s.frame with trim := 0 }).endingNotice 4#8 = s.endingNotice 4#8 := by
        funext c
        simp [State.endingNotice]
      obtain ⟨al, at_⟩ := handAll_agrees (ended.map (s.endingNotice 4#8)) (s.withFrame { s.frame with trim := 0 }) s rfl rfl
      rw [same] at line tally
      exact ⟨ended, fun _ _ => perm, fun k => absurd (k h.1) h.2, sorted, e ▸ line.trans al, e ▸ tally.trans at_⟩
    · have back : opensCalls s.frame.mode → opensCalls new :=
        fun a => Classical.byContradiction (fun b => h ⟨a, b⟩)
      refine ⟨[], fun a b => absurd ⟨a, b⟩ h, fun _ => rfl, List.Pairwise.nil, ?_, ?_⟩ <;>
        rw [(leaveCalling_effect s new).2.1 back] <;> rfl
  obtain ⟨ended, h1, h2, h3, line, tally⟩ := leaving
  refine ⟨ended, h1, h2, h3, fun notices hn => ?_⟩
  subst hn
  have claim : (s.leaveCalling new).frame.claim = s.frame.claim := by
    unfold State.leaveCalling
    split <;> simp
  have full : (s.leaveCalling new).fullStopClaim = s.fullStopClaim := by
    simp [State.fullStopClaim, State.cfg]
  obtain ⟨e1, e2⟩ := entered_notices (s.leaveCalling new) new reason
  rw [claim, full] at e1 e2
  obtain ⟨g1, g2⟩ := handAll_agrees (if new = .fullStop ∧ s.frame.claim.state = .none then [s.fullStopClaim] else [])
    (s.leaveCalling new) (s.handAll (ended.map (s.endingNotice 4#8))) line tally
  have f : (s.changeMode new reason).forecastNotice =
      ((((s.leaveCalling new).placeMode new reason).entryActions new).reportMode s.frame.mode).forecastNotice := by
    simp [State.changeMode, State.forecastNotice, State.buildForecast, State.notice, State.cfg]
  rw [handAll_append, handAll_append, f]
  exact hand_agrees _ (e1.trans g1) (e2.trans g2)

/-- R92: a change of mode does what `changedMode` says; a change to FULL-STOP carries no reason. -/
theorem changeMode_changedMode (s : State) (new : FrameMode) (reason : Option StopReason)
    (plain : new = .fullStop → reason = none) : s.changedMode new reason (s.changeMode new reason) := by
  obtain ⟨l1, l2, l3, l4, l5, l6⟩ := leaveCalling_effect s new
  have table : (s.changeMode new reason).table = (s.leaveCalling new).table := by
    simp [State.changeMode, State.buildForecast]
  have pieces : (s.changeMode new reason).pieces = (s.leaveCalling new).pieces := by
    simp [State.changeMode, State.buildForecast]
  have spindle : ∀ n, (s.changeMode new reason).spindle n = (s.leaveCalling new).spindle n := by
    intro n
    simp [State.spindle, table]
  have counts : (s.changeMode new reason).tally.exceptSendFailures = s.tally.exceptSendFailures := by
    rw [← l6]
    simp only [State.changeMode, State.buildForecast, hand_exceptSendFailures]
    exact entryActions_counts _ _
  have left : (s.leaveCalling new).frame.claim = s.frame.claim ∧
      (s.leaveCalling new).frame.permitDropped = s.frame.permitDropped ∧
      (s.leaveCalling new).frame.fullAt = s.frame.fullAt ∧
      (s.leaveCalling new).frame.doffStartAt = s.frame.doffStartAt ∧
      (opensCalls s.frame.mode → ¬opensCalls new → (s.leaveCalling new).frame.trim = 0) ∧
      ((opensCalls s.frame.mode → opensCalls new) → (s.leaveCalling new).frame.trim = s.frame.trim) := by
    by_cases h : opensCalls s.frame.mode ∧ ¬opensCalls new
    · rw [(l1 h.1 h.2).2.1]
      exact ⟨rfl, rfl, rfl, rfl, fun _ _ => rfl, fun k => absurd (k h.1) h.2⟩
    · rw [l2 (fun a => Classical.byContradiction (fun b => h ⟨a, b⟩))]
      exact ⟨rfl, rfl, rfl, rfl, fun a b => absurd ⟨a, b⟩ h, fun _ => rfl⟩
  have ends : (s.leaveCalling new).endsIn new = s.endsIn new := by simp [State.endsIn]
  have placed := placed_frame (s.leaveCalling new) new reason plain
  have cfg : (s.leaveCalling new).cfg = s.cfg := by simp [State.cfg]
  have clock : (s.leaveCalling new).clock = s.clock := by simp
  rw [ends, left.1, cfg, clock] at placed
  have drive : (s.changeMode new reason).drive = s.drive.enterMode s.cfg
      (((s.leaveCalling new).placeMode new reason).entryActions new).frame.trim s.frame.mode (s.endsIn new) := by
    have mode : (((s.leaveCalling new).placeMode new reason).entryActions new).frame.mode = s.endsIn new := by
      rw [placed]
    rw [← mode]
    simp [State.changeMode, State.buildForecast, State.reportMode, State.cfg]
  have frame : (s.changeMode new reason).frame =
      { (((s.leaveCalling new).placeMode new reason).entryActions new).frame with
        lastForecast := some s.drive.measured
        forecastDue := some (s.clock + 60000000 * s.cfg.forecastInterval) } := by
    simp [State.changeMode, State.buildForecast, State.reportMode, State.cfg, enterMode_measured]
  rw [placed] at frame drive
  have stays : opensCalls new → s.endsIn new = new := by
    intro h
    unfold State.endsIn
    rw [if_neg]
    rintro ⟨rfl, _⟩
    rcases h with h | h <;> cases h
  have noCalls : ¬opensCalls new → ¬opensCalls (s.endsIn new) := by
    intro h
    unfold State.endsIn
    split
    · rintro (h | h) <;> cases h
    · exact h
  unfold State.changedMode
  rw [frame, drive]
  refine ⟨rfl, rfl, rfl, rfl, rfl, left.2.1, left.2.2.1, left.2.2.2.1, rfl, ?_, ?_, ?_, ?_, ?_, rfl, rfl,
    buildForecast_handed _, ?_, ?_, ?_, changeMode_notices s new reason, ?_, ?_, ?_, ?_, counts, ?_, ?_, ?_, ?_⟩
  · intro a b
    show (if _ then 0 else (s.leaveCalling new).frame.trim) = 0
    split
    · rfl
    · exact left.2.2.2.2.1 a b
  · intro a b
    exact if_pos ⟨a, b⟩
  · intro a b
    exact (if_neg b).trans (left.2.2.2.2.2 a)
  · intro h
    show s.drive.enterMode s.cfg (if _ then 0 else (s.leaveCalling new).frame.trim) s.frame.mode (s.endsIn new) = _
    rw [stays h, if_neg (by rintro ⟨rfl, _⟩; rcases h with h | h <;> cases h), left.2.2.2.2.2 (fun _ => h)]
  · intro h
    exact enterMode_standing _ _ _ _ _ (noCalls h)
  · intro a b
    refine ⟨by rw [pieces]; exact (l1 a b).1, fun n r hr hs hm => ?_⟩
    rw [spindle]
    exact (l1 a b).2.2 n r hr hs hm
  · intro h
    rw [pieces, table, l2 h]
    exact ⟨rfl, rfl⟩
  · intro n hn
    rw [spindle]
    exact l3 n hn
  · rw [table]
    exact l4
  · rw [pieces]
    exact l5
  all_goals simp [State.changeMode, State.buildForecast]

end Sys2Proof.Machine
end

