-- ==== Sys2Proof/Laws/Calls.lean ====
section
/-! SUPPORT. What the dispatcher's shared operations do, each said once: the serial, the opening of a call,
the walk, and the end of the call of a spindle that is declared up. -/

namespace Sys2Proof.Machine

/-! ## The serial (R64) -/

/-- A list without repeats is no longer than a list that holds all of it. -/
theorem length_le_of_nodup {α : Type} [DecidableEq α] : ∀ (l m : List α), l.Nodup → (∀ a ∈ l, a ∈ m) →
    l.length ≤ m.length := by
  intro l
  induction l with
  | nil => exact fun _ _ _ => Nat.zero_le _
  | cons a l ih =>
    intro m nodup sub
    obtain ⟨ha, hl⟩ := List.nodup_cons.mp nodup
    have hm := sub a (List.mem_cons_self ..)
    have short := ih (m.erase a) hl (fun b hb =>
      (List.mem_erase_of_ne (fun e : b = a => ha (e ▸ hb))).mpr (sub b (List.mem_cons_of_mem _ hb)))
    have := List.length_erase_of_mem hm
    have := List.length_pos_of_mem hm
    rw [List.length_cons]
    omega

/-- The search for the serial passes over taken values, and stops at a free one or when its fuel is spent. -/
theorem nextSerial_search (calls : List Call) (n : Nat) : ∀ fuel k : Nat,
    (∀ j, j < k → (n + j) % 65535 + 1 ∈ calls.map (fun c => c.number)) →
    ∃ k', nextSerial calls fuel ((n + k) % 65535 + 1) = (n + k') % 65535 + 1 ∧
      (∀ j, j < k' → (n + j) % 65535 + 1 ∈ calls.map (fun c => c.number)) ∧
      ((n + k') % 65535 + 1 ∉ calls.map (fun c => c.number) ∨ k' = k + fuel) := by
  intro fuel
  induction fuel with
  | zero => exact fun k taken => ⟨k, rfl, taken, Or.inr rfl⟩
  | succ fuel ih =>
    intro k taken
    by_cases here : (n + k) % 65535 + 1 ∈ calls.map (fun c => c.number)
    · have any : calls.any (fun c => c.number == (n + k) % 65535 + 1) = true := by
        obtain ⟨c, hc, e⟩ := List.mem_map.mp here
        exact List.any_eq_true.mpr ⟨c, hc, by simp [e]⟩
      have step : serialAfter ((n + k) % 65535 + 1) = (n + (k + 1)) % 65535 + 1 := by
        unfold serialAfter
        split <;> omega
      obtain ⟨k', e, t, f⟩ := ih (k + 1) (fun j hj => by
        by_cases hk : j = k
        · exact hk ▸ here
        · exact taken j (by omega))
      refine ⟨k', ?_, t, f.imp id (fun h => by omega)⟩
      unfold nextSerial
      rw [if_pos any, step, e]
    · have none : ¬calls.any (fun c => c.number == (n + k) % 65535 + 1) = true := by
        intro h
        obtain ⟨c, hc, e⟩ := List.any_eq_true.mp h
        exact here (List.mem_map.mpr ⟨c, hc, beq_iff_eq.mp e⟩)
      refine ⟨k, ?_, taken, Or.inl here⟩
      unfold nextSerial
      rw [if_neg none]

/-- R64: the serial that a call leaves is the first value that follows it and names no live call. -/
theorem nextSerial_follows (calls : List Call) (n : Nat) (low : 1 ≤ n) (high : n ≤ 65535) (few : calls.length < 65535) :
    serialFollows (calls.map (fun c => c.number)) n (nextSerial calls (calls.length + 1) (serialAfter n)) := by
  have first : serialAfter n = (n + 0) % 65535 + 1 := by
    unfold serialAfter
    split <;> omega
  obtain ⟨k, e, taken, free⟩ := nextSerial_search calls n (calls.length + 1) 0 (fun _ h => absurd h (by omega))
  rw [first, e]
  refine ⟨free.resolve_right (fun hk => ?_), k, rfl, taken⟩
  have nodup : ((List.range (calls.length + 1)).map (fun j => (n + j) % 65535 + 1)).Nodup := by
    rw [List.nodup_iff_pairwise_ne, List.pairwise_map]
    refine List.Pairwise.imp_of_mem (fun {a b} ha hb hab => ?_) List.pairwise_lt_range
    have := List.mem_range.mp ha
    have := List.mem_range.mp hb
    omega
  have := length_le_of_nodup _ _ nodup (fun a ha => by
    obtain ⟨j, hj, rfl⟩ := List.mem_map.mp ha
    exact taken j (by have := List.mem_range.mp hj; omega))
  rw [List.length_map, List.length_range, List.length_map] at this
  omega

/-! ## Opening a call (R28, R64, R68) -/

/-- The place of a spindle is a matter of the settings alone. -/
theorem placeBytes_agrees {u v : State} (n : Nat) (h : u.start = v.start) : u.placeBytes n = v.placeBytes n := by
  have side : u.sideOf n = v.sideOf n := by unfold State.sideOf State.spindlesA State.cfg; rw [h]
  have on : u.onSide n = v.onSide n := by
    unfold State.onSide
    rw [side]
    cases v.sideOf n
    · rfl
    · unfold State.sideBase State.spindlesA State.cfg
      rw [h]
  unfold State.placeBytes State.sectionOf State.positionOf State.moduleOf
  rw [side, on]

/-- A CALL carries the place, the attempts and the age of its spindle. -/
theorem callNotice_agrees {u v : State} (c : Call) (start : u.start = v.start)
    (attempts : u.attemptsOf c.spindle = v.attemptsOf c.spindle) (age : u.ageOf c.spindle = v.ageOf c.spindle) :
    u.callNotice c = v.callNotice c := by
  unfold State.callNotice State.notice
  rw [placeBytes_agrees _ start, start, attempts, age]

/-- Everything that opening a call for a spindle does. -/
theorem openCall_effect (s : State) (n : Nat) (r : SpindleRec) (h : s.spindle n = some r) (down : r.state = .down) :
    (s.openCall n).pieces =
        { s.pieces with
          calls := s.pieces.calls ++ [s.newCall n]
          serial := nextSerial (s.pieces.calls ++ [s.newCall n]) (s.pieces.calls.length + 2) (serialAfter s.pieces.serial) } ∧
      (s.openCall n).line = (s.hand (s.callNotice (s.newCall n))).line ∧
      (s.openCall n).tally = (s.hand (s.callNotice (s.newCall n))).tally ∧
      (s.openCall n).spindle n =
        some { r with state := .called, call := some s.pieces.serial, notBefore := none } ∧
      (∀ m, m ≠ n → (s.openCall n).spindle m = s.spindle m) ∧
      (s.openCall n).table.breakList = s.table.breakList ∧ (s.openCall n).frame = s.frame ∧
      (s.openCall n).start = s.start ∧ (s.openCall n).clock = s.clock := by
  have spindles : ∀ m, (s.openCall n).spindle m =
      if m = n then some { r with state := .called, call := some s.pieces.serial, notBefore := none } else s.spindle m := by
    intro m
    have same : ∀ v : Dispatcher, (s.withPieces v).spindle = s.spindle := fun v => rfl
    have table : ∀ u v : State, u.table = v.table → u.spindle m = v.spindle m := fun u v hv => by
      unfold State.spindle
      rw [hv]
    unfold State.openCall
    refine (table _ _ (hand_frame _ _).2.2.2.2.2.2.2.1).trans ?_
    rw [spindle_editSpindle, same, h]
    simp only [Option.map_some, SpindleRec.enter, down, State.newCall]
    rfl
  have call : ∀ v : Dispatcher, ((s.withPieces v).editSpindle n (fun r =>
      { r.enter .called with call := some (s.newCall n).number, notBefore := none })).callNotice (s.newCall n) =
      s.callNotice (s.newCall n) := by
    intro v
    have same : (s.withPieces v).spindle = s.spindle := rfl
    have now : ∀ f, ((s.withPieces v).editSpindle n f).second = s.second := fun f => by simp [State.second]
    have kept : ((s.withPieces v).editSpindle n (fun r =>
        { r.enter .called with call := some (s.newCall n).number, notBefore := none })).spindle n =
          some { r.enter .called with call := some (s.newCall n).number, notBefore := none } := by
      rw [spindle_editSpindle, same, h]
      simp
    refine callNotice_agrees _ (by simp) ?_ ?_
    · unfold State.attemptsOf
      simp only [State.newCall] at kept ⊢
      rw [kept, h]
      rfl
    · unfold State.ageOf
      simp only [State.newCall] at kept ⊢
      rw [kept, now, h]
      rfl
  refine ⟨?_, ?_, ?_, ?_, ?_, ?_, ?_, ?_, ?_⟩
  · unfold State.openCall
    simp [State.newCall]
  · unfold State.openCall
    simp only [call]
    exact (hand_agrees _ (by simp) (by simp)).1
  · unfold State.openCall
    simp only [call]
    exact (hand_agrees _ (by simp) (by simp)).2
  · rw [spindles, if_pos rfl]
  · intro m hm
    rw [spindles, if_neg hm]
  all_goals
    unfold State.openCall
    simp

/-! ## The walk (R66 to R68) -/

theorem callable_iff (s : State) (n : Nat) : s.callable n = true ↔ s.endWaits n := by
  unfold State.callable State.endWaits State.second
  cases s.spindle n with
  | none => simp
  | some r => cases hb : r.notBefore <;> simp [hb, and_assoc]

/-- Whether the walk chooses a spindle is a matter of its record, the settings and the clock. -/
theorem callable_agrees {u v : State} (n : Nat) (spindle : u.spindle n = v.spindle n) (start : u.start = v.start)
    (clock : u.clock = v.clock) : u.callable n = v.callable n := by
  unfold State.callable State.second State.cfg
  rw [spindle, start, clock]

/-- What a walk along a list does with the calls: it opens the first of the spindles that wait, as many as there are slots,
numbers them by the serial, and hands one CALL for each. -/
theorem walkFold_effect (l : List Nat) : ∀ s : State, l.Nodup → ∃ opened : List Call,
    (l.foldl State.walkAt s).pieces.calls = s.pieces.calls ++ opened ∧
      opened.map (fun c => c.spindle) = (l.filter s.callable).take (s.cfg.openCallLimit - s.pieces.calls.length) ∧
      (s.serialInRange → s.cfg.openCallLimit < 65535 →
        takesSerials (s.pieces.calls.map (fun c => c.number)) s.pieces.serial (opened.map (fun c => c.number))
          (l.foldl State.walkAt s).pieces.serial) ∧
      (l.foldl State.walkAt s).line = (s.handAll (opened.map s.callNotice)).line ∧
      (l.foldl State.walkAt s).tally = (s.handAll (opened.map s.callNotice)).tally := by
  induction l with
  | nil => exact fun s _ => ⟨[], by simp, by simp, fun _ _ => rfl, rfl, rfl⟩
  | cons n l ih =>
    intro s nodup
    obtain ⟨hn, nodup⟩ := List.nodup_cons.mp nodup
    rw [List.foldl_cons]
    have skips : ¬(s.slotFree && s.callable n) = true → s.walkAt n = s := fun h => if_neg h
    by_cases hs : s.slotFree = true
    · have room : s.pieces.calls.length < s.cfg.openCallLimit := of_decide_eq_true hs
      by_cases hc : s.callable n = true
      · obtain ⟨r, hr, down, _⟩ := (callable_iff s n).mp hc
        obtain ⟨pieces, line, tally, _, others, _, _, start, clock⟩ := openCall_effect s n r hr down
        have e : s.walkAt n = s.openCall n := if_pos (by rw [hs, hc]; rfl)
        have calls : (s.openCall n).pieces.calls = s.pieces.calls ++ [s.newCall n] := by rw [pieces]
        have cfg : (s.openCall n).cfg = s.cfg := by unfold State.cfg; rw [start]
        have rest : l.filter (s.openCall n).callable = l.filter s.callable :=
          List.filter_congr (fun m hm => callable_agrees m (others m (fun e => hn (e ▸ hm))) start clock)
        obtain ⟨opened, h1, h2, h3, h4, h5⟩ := ih (s.openCall n) nodup
        have notices : opened.map (s.openCall n).callNotice = opened.map s.callNotice := by
          refine List.map_congr_left (fun c hc => ?_)
          have hm : c.spindle ∈ opened.map (fun c => c.spindle) := List.mem_map.mpr ⟨c, hc, rfl⟩
          rw [h2] at hm
          have other : c.spindle ≠ n := fun e => hn (e ▸ (List.mem_filter.mp (List.mem_of_mem_take hm)).1)
          refine callNotice_agrees c start ?_ ?_
          · unfold State.attemptsOf
            rw [others _ other]
          · unfold State.ageOf State.second
            rw [others _ other, clock]
        refine ⟨s.newCall n :: opened, ?_, ?_, fun range limit => ?_, ?_, ?_⟩
        · rw [e, h1, calls, List.append_assoc]
          rfl
        · obtain ⟨k, hk⟩ : ∃ k, s.cfg.openCallLimit - s.pieces.calls.length = k + 1 :=
            ⟨_, (Nat.succ_pred (by omega)).symm⟩
          rw [List.map_cons, h2, rest, cfg, calls, List.filter_cons_of_pos hc, hk, List.take_succ_cons,
            show s.cfg.openCallLimit - (s.pieces.calls ++ [s.newCall n]).length = k by
              rw [List.length_append, List.length_singleton]; omega]
          rfl
        · have follows := nextSerial_follows (s.pieces.calls ++ [s.newCall n]) s.pieces.serial range.1 range.2
            (by rw [List.length_append, List.length_singleton]; omega)
          rw [List.length_append, List.length_singleton] at follows
          have next : (s.openCall n).pieces.serial =
              nextSerial (s.pieces.calls ++ [s.newCall n]) (s.pieces.calls.length + 2) (serialAfter s.pieces.serial) := by
            rw [pieces]
          have tail := h3 (by
            obtain ⟨_, k, hk, _⟩ := follows
            unfold State.serialInRange
            rw [next, show nextSerial _ (s.pieces.calls.length + 2) _ = _ from hk]
            omega) (by rw [cfg]; exact limit)
          rw [calls] at tail
          rw [e]
          refine ⟨rfl, (s.openCall n).pieces.serial, ?_, ?_⟩
          · rw [next]
            simpa [State.newCall] using follows
          · simpa [State.newCall] using tail
        · rw [e, h4, notices]
          exact (handAll_agrees _ _ _ line tally).1
        · rw [e, h5, notices]
          exact (handAll_agrees _ _ _ line tally).2
      · rw [skips (by simp [hc]), List.filter_cons_of_neg hc]
        exact ih s nodup
    · obtain ⟨opened, h1, h2, h3⟩ := ih s nodup
      have full : s.cfg.openCallLimit - s.pieces.calls.length = 0 :=
        Nat.sub_eq_zero_of_le (Nat.not_lt.mp (fun h => hs (decide_eq_true h)))
      rw [full, List.take_zero] at h2 ⊢
      rw [skips (by simp [hs])]
      exact ⟨opened, h1, h2, h3⟩

/-! ## A declaration of up (R78, R84) -/

/-- The call of a spindle declared up ends as CLOSE(PIECED) or CANCEL, is counted, and one walk follows. -/
theorem confirmCall_effect (s : State) (k : Nat) (c : Call) (h : s.liveCall k = some c) :
    ∃ s1 : State, s.confirmCall k = s1.walk ∧
      s1.pieces = { s.pieces with calls := s.pieces.calls.filter (fun d => d.number != k) } ∧
      s1.line = (s.hand (s.endingNotice 1#8 c)).line ∧
      s1.tally.opened.counts = (s.hand (s.endingNotice 1#8 c)).tally.opened.counts ∧
      (∀ side, s1.sideCounts side =
        if s.sideOf c.spindle ≠ side then s.sideCounts side
        else if c.state = .opened then
          { s.sideCounts side with piecedByHand := min 255 ((s.sideCounts side).piecedByHand + 1) }
        else { s.sideCounts side with pieced := min 65535 ((s.sideCounts side).pieced + 1) }) ∧
      s1.tally.ring = s.tally.ring ∧ s1.table = s.table ∧ s1.frame = s.frame ∧ s1.chain = s.chain ∧
      s1.start = s.start ∧ s1.clock = s.clock ∧ s1.roving = s.roving ∧ s1.drive = s.drive := by
  have number : c.number = k := by simpa using List.find?_some h
  have ends : s.endCall .pieced c = ((s.freeCall k).hand (s.endingNotice 1#8 c)) := by
    unfold State.endCall
    rw [number, endNotice_eq]
    rfl
  have free : s.freeCall k = s.withPieces { s.pieces with calls := s.pieces.calls.filter (fun d => d.number != k) } := rfl
  obtain ⟨hl, ht⟩ := hand_agrees (s := s.freeCall k) (s' := s) (s.endingNotice 1#8 c) rfl rfl
  have side : ∀ x, ((s.freeCall k).hand (s.endingNotice 1#8 c)).sideCounts x = s.sideCounts x := by
    intro x
    have := hand_exceptSendFailures (s.freeCall k) (s.endingNotice 1#8 c)
    have ha := congrArg (fun u : TallyUnit => (u.opened.sideA, u.opened.sideB)) this
    simp only [TallyUnit.exceptSendFailures, Prod.mk.injEq] at ha
    cases x
    · exact ha.1
    · exact ha.2
  have ring : ((s.freeCall k).hand (s.endingNotice 1#8 c)).tally.ring = s.tally.ring := by
    have := congrArg TallyUnit.ring (hand_exceptSendFailures (s.freeCall k) (s.endingNotice 1#8 c))
    exact this
  have pieces : ((s.freeCall k).hand (s.endingNotice 1#8 c)).pieces =
      { s.pieces with calls := s.pieces.calls.filter (fun d => d.number != k) } := by
    rw [free]
    simp
  have counted : ∀ (x : Side) (f : SideCounts → SideCounts) (u : State),
      (u.tallySide x f).pieces = u.pieces ∧ (u.tallySide x f).line = u.line ∧
        (u.tallySide x f).tally.opened.counts = u.tally.opened.counts ∧ (u.tallySide x f).tally.ring = u.tally.ring ∧
        ∀ y, (u.tallySide x f).sideCounts y = if x ≠ y then u.sideCounts y else f (u.sideCounts y) := by
    intro x f u
    cases x <;> refine ⟨rfl, rfl, rfl, rfl, fun y => ?_⟩ <;> cases y <;> rfl
  have named : s.confirmCall k = (State.walk (((s.freeCall k).hand (s.endingNotice 1#8 c)).tallySide
      (s.sideOf c.spindle) (fun o => if c.state = .opened then { o with piecedByHand := raise 255 1 o.piecedByHand }
        else { o with pieced := raise 65535 1 o.pieced }))) := by
    unfold State.confirmCall
    rw [h]
    simp only [ends]
    cases c.state <;> rfl
  refine ⟨_, named, ?_, ?_, ?_, ?_, ?_, ?_, ?_, ?_, ?_, ?_, ?_, ?_⟩
  · rw [(counted _ _ _).1, pieces]
  · rw [(counted _ _ _).2.1, hl]
  · rw [(counted _ _ _).2.2.1, ht]
  · intro x
    rw [(counted _ _ _).2.2.2.2 x, side]
    by_cases hx : s.sideOf c.spindle ≠ x
    · simp only [hx, if_true, ne_eq, not_false_eq_true]
    · simp only [hx, if_false]
      cases c.state <;> rfl
  · rw [(counted _ _ _).2.2.2.1, ring]
  all_goals simp [free]

end Sys2Proof.Machine
end

