-- ==== Sys2Proof/Laws/Chain.lean ====
section
/-! SUPPORT. What the chain engine makes of a sense pass, each operation said once: the folds over the spindles of a module
as one change of the records, and the spindles of modules that go blind or recover. -/

namespace Sys2Proof.Machine

/-! ## Folds over the places of a module -/

/-- Changing neighbouring places of a list one after another, each by its own value, as one change. -/
theorem foldl_modify_zip {α β : Type} (g : α → β → β) (first : Nat) : ∀ (n a : Nat) (ys : List α) (l : List β),
    (((List.range' a n).map (fun q => first + q + 1)).zip ys).foldl (fun l p => l.modify (p.1 - 1) (g p.2)) l =
      l.mapIdx (fun k old => if first + a ≤ k ∧ k < first + a + n then
        ((ys[k - (first + a)]?).map (fun y => g y old)).getD old else old) := by
  intro n
  induction n with
  | zero =>
    intro a ys l
    have none : ∀ k, ¬(first + a ≤ k ∧ k < first + a) := by omega
    apply List.ext_getElem?
    intro i
    simp only [List.range'_zero, List.map_nil, List.zip_nil_left, List.foldl_nil, List.getElem?_mapIdx, Nat.add_zero,
      none, if_false, Option.map_id']
  | succ n ih =>
    intro a ys l
    cases ys with
    | nil =>
      apply List.ext_getElem?
      intro i
      simp
    | cons y ys =>
      rw [List.range'_succ, List.map_cons, List.zip_cons_cons, List.foldl_cons, ih]
      apply List.ext_getElem?
      intro i
      simp only [List.getElem?_mapIdx, List.getElem?_modify, Nat.add_sub_cancel]
      cases l[i]? with
      | none => simp
      | some old =>
        simp only [Option.map_some]
        by_cases h1 : first + a = i
        · subst h1
          have after : ¬(first + (a + 1) ≤ first + a ∧ first + a < first + (a + 1) + n) := by omega
          have here : first + a ≤ first + a ∧ first + a < first + a + (n + 1) := by omega
          simp only [Option.map_eq_map, if_true, Option.map_some, if_neg after, if_pos here, Nat.sub_self,
            List.getElem?_cons_zero, Option.getD_some]
        · by_cases h2 : first + a ≤ i ∧ i < first + a + (n + 1)
          · have h3 : first + (a + 1) ≤ i ∧ i < first + (a + 1) + n := by omega
            have h4 : i - (first + a) = i - (first + (a + 1)) + 1 := by omega
            simp [h1, h2, h3, h4]
          · have h3 : ¬(first + (a + 1) ≤ i ∧ i < first + (a + 1) + n) := by omega
            simp [h1, h2, h3]

/-- The same for the eight places of a module. -/
theorem foldl_modify_module {α β : Type} (g : α → β → β) (first : Nat) (ys : List α) (l : List β) :
    (((List.range 8).map (fun q => first + q + 1)).zip ys).foldl (fun l p => l.modify (p.1 - 1) (g p.2)) l =
      l.mapIdx (fun k old => if first ≤ k ∧ k < first + 8 then
        ((ys[k - first]?).map (fun y => g y old)).getD old else old) := by
  have h := foldl_modify_zip g first 8 0 ys l
  rw [← List.range_eq_range'] at h
  simpa using h

@[simp] theorem moduleSpindles_eq (s : State) (side : Side) (m : Nat) :
    s.moduleSpindles side m = s.spindlesIn side m := rfl

theorem setModule_eq (s : State) (side : Side) (m : Nat) (v : ModuleRec) :
    s.setModule side m v = s.moduleSet side m v := rfl

/-- R11, R15: the run counters of some spindles return to 0. -/
theorem clearRuns_eq (l : List Nat) : ∀ s : State, s.clearRuns l = s.runsCleared l := by
  induction l with
  | nil =>
    intro s
    have : s.table.recs.mapIdx (fun _ r => r) = s.table.recs := by
      apply List.ext_getElem?
      simp
    simp [State.clearRuns, State.runsCleared, this]
  | cons a l ih =>
    intro s
    have h : s.clearRuns (a :: l) = (s.editSpindle a (fun r => { r with run := 0 })).clearRuns l := rfl
    rw [h, ih]
    unfold State.runsCleared State.editSpindle
    by_cases ha : a = 0
    · simp [ha]
    · simp only [ha, if_false, withTable_table, List.mem_cons]
      have same : (s.table.recs.modify (a - 1) (fun r => { r with run := 0 })).mapIdx
          (fun k r => if k + 1 ∈ l then { r with run := 0 } else r) =
            s.table.recs.mapIdx (fun k r => if k + 1 = a ∨ k + 1 ∈ l then { r with run := 0 } else r) := by
        apply List.ext_getElem?
        intro i
        simp only [List.getElem?_mapIdx, List.getElem?_modify]
        cases s.table.recs[i]? with
        | none => simp
        | some r =>
          by_cases h1 : i + 1 = a
          · have : a - 1 = i := by omega
            by_cases h2 : i + 1 ∈ l <;> simp [h1, this]
          · have : a - 1 ≠ i := by omega
            simp [h1, this]
      rw [same]
      rfl

/-- R10: the readings of a good pass become the last readings of the module's spindles. -/
theorem storeReadings_eq (s : State) (side : Side) (m : Nat) (v : ModuleRec) (yarn : List Bool) :
    (s.setModule side m v).storeReadings side m yarn = s.moduleRead side m v yarn := by
  have fold : ∀ (l : List (Nat × Bool)) (s : State),
      l.foldl (fun s p => s.withChain { s.chain with readings := s.chain.readings.set (p.1 - 1) p.2 }) s =
        s.withChain { s.chain with
          readings := l.foldl (fun rd p => rd.modify (p.1 - 1) (fun _ => p.2)) s.chain.readings } := by
    intro l
    induction l with
    | nil => intro s; rfl
    | cons p l ih =>
      intro s
      rw [List.foldl_cons, ih]
      have one : s.chain.readings.set (p.1 - 1) p.2 = s.chain.readings.modify (p.1 - 1) (fun _ => p.2) := by
        apply List.ext_getElem?
        intro i
        rw [List.getElem?_set', List.getElem?_modify]
        split
        · cases s.chain.readings[i]? <;> rfl
        · cases s.chain.readings[i]? <;> rfl
      simp only [withChain_chain, List.foldl_cons, one]
      rfl
  unfold State.storeReadings
  rw [fold]
  have first : (s.setModule side m v).moduleSpindles side m =
      (List.range 8).map (fun q => (s.sideBase side + 8 * (m - 1)) + q + 1) := rfl
  rw [first, foldl_modify_module (fun y _ => y)]
  have readings : (s.setModule side m v).chain.readings = s.chain.readings := by
    cases side <;> rfl
  rw [readings]
  unfold State.moduleRead
  simp only [List.getD_eq_getElem?_getD, Option.map_id', ← setModule_eq]
  rfl

/-- R16: the run counters of a module move, all in one change of the records. -/
theorem debounceCounts_eq (s : State) (side : Side) (m : Nat) (yarn : List Bool) :
    ((s.spindlesIn side m).zip yarn).foldl (fun u p => u.debounceCount p.1 p.2) s =
      { s with table := { s.table with recs := s.table.recs.mapIdx (fun k r =>
          if s.sideBase side + 8 * (m - 1) ≤ k ∧ k < s.sideBase side + 8 * (m - 1) + 8 then
            ((yarn[k - (s.sideBase side + 8 * (m - 1))]?).map (fun y => (debounceRec s.cfg r y).1)).getD r
          else r) } } := by
  have fold : ∀ (l : List (Nat × Bool)) (s : State), (∀ p ∈ l, p.1 ≠ 0) →
      l.foldl (fun u p => u.debounceCount p.1 p.2) s =
        s.withTable { s.table with
          recs := l.foldl (fun recs p => recs.modify (p.1 - 1) (fun r => (debounceRec s.cfg r p.2).1)) s.table.recs } := by
    intro l
    induction l with
    | nil => intro s _; rfl
    | cons p l ih =>
      intro s hl
      rw [List.foldl_cons, ih _ (fun q hq => hl q (List.mem_cons_of_mem _ hq))]
      simp only [State.debounceCount, State.editSpindle, hl p List.mem_cons_self, if_false, withTable_table,
        List.foldl_cons]
      rfl
  rw [fold]
  · have first : s.spindlesIn side m = (List.range 8).map (fun q => (s.sideBase side + 8 * (m - 1)) + q + 1) := rfl
    rw [first, foldl_modify_module (fun y r => (debounceRec s.cfg r y).1)]
    rfl
  · intro p hp
    have := (List.of_mem_zip hp).1
    simp only [State.spindlesIn, List.mem_map] at this
    obtain ⟨q, _, hq⟩ := this
    omega

theorem takeReport_eq (s : State) (p : Nat × Option Bool) : s.takeReport p = s.reported p.1 p.2 := by
  unfold State.takeReport State.reported
  cases p.2 with
  | none => rfl
  | some b => cases b <;> rfl

/-- R9, R16: everything debounce of a module does. -/
theorem debounceModule_eq (s : State) (side : Side) (m : Nat) (yarn : List Bool) :
    s.debounceModule side m yarn = ((s.spindlesIn side m).zip yarn).foldl
      (fun u p => u.reported p.1 ((s.spindle p.1).bind (fun r => (debounceRec s.cfg r p.2).2)))
      (((s.spindlesIn side m).zip yarn).foldl (fun u p => u.debounceCount p.1 p.2) s) := by
  unfold State.debounceModule
  rw [List.foldl_map]
  simp only [moduleSpindles_eq, takeReport_eq]
  rfl

/-! ## A module in a pass (R10 to R12) -/

/-- R10, R11: a module that is bad in a pass. -/
theorem applyModule_bad (s : State) (side : Side) (detect : Bool) (m : Nat) (yarn : List Bool) :
    s.applyModule side detect m false yarn =
      if (s.moduleRec side m).blind = false ∧ 3 ≤ (s.moduleRec side m).suspect + 1 then
        ((s.moduleSet side m (s.moduleRec side m).bad).runsCleared (s.spindlesIn side m)).blindModule side m
      else s.moduleSet side m (s.moduleRec side m).bad := by
  unfold State.applyModule
  simp only [Bool.false_eq_true, if_false, clearRuns_eq, setModule_eq]
  by_cases h : (s.moduleRec side m).blind = false ∧ 3 ≤ (s.moduleRec side m).suspect + 1
  · rw [if_pos h, if_pos (by simp [ModuleRec.bad, h.1, h.2])]
    rfl
  · rw [if_neg h, if_neg]
    intro hc
    simp only [ModuleRec.bad, Bool.and_eq_true, Bool.not_eq_true', Bool.or_eq_true, decide_eq_true_eq] at hc
    rcases hc.2 with h2 | h2
    · rw [hc.1] at h2
      cases h2
    · exact h ⟨hc.1, h2⟩

/-- R10, R12, R16: a module that is good in a pass. -/
theorem applyModule_good (s : State) (side : Side) (detect : Bool) (m : Nat) (yarn : List Bool) :
    s.applyModule side detect m true yarn =
      (let s1 := s.moduleRead side m (s.moduleRec side m).good yarn
       if (s.moduleRec side m).blind = true then
         if (s.moduleRec side m).recovery + 1 < 8 then s1 else s1.recoverModule side m yarn
       else if detect = true then s1.debounceModule side m yarn else s1) := by
  unfold State.applyModule
  simp only [if_true, storeReadings_eq]
  cases hb : (s.moduleRec side m).blind with
  | false => simp
  | true =>
    by_cases hr : (s.moduleRec side m).recovery + 1 < 8 <;> simp [ModuleRec.good, hb, hr]

/-! ## A whole pass (R9, R13, R15) -/

theorem applyModules_eq (side : Side) (detect matched : Bool) : ∀ (frames : List PendingFrame) (m : Nat) (s : State),
    s.applyModules side detect matched m frames =
      (frames.zipIdx m).foldl (fun u p => u.applyModule side detect p.2 (matched && p.1.passing) p.1.yarn) s := by
  intro frames
  induction frames with
  | nil => intro m s; rfl
  | cons f frames ih =>
    intro m s
    rw [State.applyModules, ih]
    rfl

/-- R9, R13, R15: everything that the end of a sense pass applies. -/
theorem applyPass_eq (s : State) (side : Side) (frames : List PendingFrame) (matched : Bool) :
    s.applyPass side frames matched =
      (let counted := s.withChain (s.chain.withSide side
        { s.chain.side side with trailerMissing := trailerCount (s.chain.side side).trailerMissing matched })
       (frames.zipIdx 1).foldl (fun u p => u.applyModule side s.detects p.2 (matched && p.1.passing) p.1.yarn)
        (if s.detects = true then counted else counted.runsCleared (s.spindlesOf side))) := by
  unfold State.applyPass
  simp only [applyModules_eq, clearRuns_eq]
  rfl

/-! ## Blind and recovered modules (R34, R35, R82) -/

/-- R34, R82: everything that a module gone blind does to one of its spindles. -/
theorem holdSpindle_effect (s : State) (n : Nat) (r : SpindleRec) (hr : s.spindle n = some r) (hs : r.state ≠ .held) :
    (∀ k, (s.holdSpindle n).spindle k = if k = n then some (r.hold s.drive.d) else s.spindle k) ∧
      (s.holdSpindle n).table.breakList = s.table.breakList.filter (fun k => k != n) ∧
      (r.call.bind s.liveCall = none → (s.holdSpindle n).pieces = s.pieces ∧ (s.holdSpindle n).line = s.line ∧
        (s.holdSpindle n).tally = s.tally) ∧
      ∀ c, r.call.bind s.liveCall = some c →
        (s.holdSpindle n).pieces = { s.pieces with calls := s.pieces.calls.filter (fun d => d.number != c.number) } ∧
          (s.holdSpindle n).line = (s.hand (s.endingNotice 5#8 c)).line ∧
          (s.holdSpindle n).tally = (s.hand (s.endingNotice 5#8 c)).tally := by
  unfold State.holdSpindle
  simp only [hr, hs, if_false]
  cases hc : r.call.bind s.liveCall with
  | none =>
    simp only
    refine ⟨fun k => ?_, ?_, ?_, fun _ h => nomatch h⟩
    · rw [leaveBreaks_spindle, spindle_editSpindle, hr, Option.map_some]
    · simp [State.leaveBreaks]
    · simp
  | some c =>
    simp only
    refine ⟨fun k => ?_, ?_, fun h => (nomatch h), ?_⟩
    · have : ((((s.editSpindle n (fun r => r.hold s.drive.d)).leaveBreaks n).endCall .blind c)).spindle k =
          (s.editSpindle n (fun r => r.hold s.drive.d)).spindle k := by simp [State.spindle, State.leaveBreaks]
      rw [this, spindle_editSpindle, hr, Option.map_some]
    · simp [State.leaveBreaks]
    · rintro d h
      cases h
      refine ⟨by simp [State.endCall, State.freeCall, State.withCalls], ?_⟩
      have same : ((s.editSpindle n (fun r => r.hold s.drive.d)).leaveBreaks n).endNotice c .blind =
          s.endingNotice 5#8 c := by
        rw [endNotice_eq]
        simp [State.endingNotice, CloseReason.code]
      unfold State.endCall
      rw [same]
      exact hand_agrees _ (by simp) (by simp)

@[simp] theorem addHeldSum_spindle (s : State) (side : Side) (v k : Nat) :
    (s.addHeldSum side v).spindle k = s.spindle k := by
  cases side <;> rfl

@[simp] theorem addHeldSum_breakList (s : State) (side : Side) (v : Nat) :
    (s.addHeldSum side v).table.breakList = s.table.breakList := by
  cases side <;> rfl

theorem addHeldSum_heldSum (s : State) (side other : Side) (v : Nat) :
    (s.addHeldSum side v).heldSum other =
      if side = other then min 4294967295 (s.heldSum other + v) else s.heldSum other := by
  cases side <;> cases other <;> rfl

@[simp] theorem editSpindle_heldSum (s : State) (n : Nat) (f : SpindleRec → SpindleRec) (side : Side) :
    (s.editSpindle n f).heldSum side = s.heldSum side := by
  unfold State.editSpindle
  split <;> cases side <;> rfl

/-- R23, R24: what entering the down states does to the records and the break list. -/
theorem sendDown_effect (s : State) (n : Nat) (f : SpindleRec → SpindleRec) :
    (∀ k, (s.sendDown n f).spindle k = if k = n then (s.spindle n).map (fun r =>
        { (f r).enter (s.downTarget n) with downSince := s.second, notBefore := none }) else s.spindle k) ∧
      (s.sendDown n f).table.breakList = s.table.breakList ++ [n] ∧
      ∀ side, (s.sendDown n f).heldSum side = s.heldSum side := by
  unfold State.sendDown
  refine ⟨fun k => ?_, ?_, fun side => ?_⟩
  · rw [joinBreaks_spindle, spindle_editSpindle]
  · rw [joinBreaks_breakList, editSpindle_breakList]
  · have : ∀ u : State, (u.joinBreaks n).heldSum side = u.heldSum side := by
      intro u
      cases side <;> rfl
    rw [this, editSpindle_heldSum]

/-- R35: how a recovered module returns one of its spindles. -/
theorem recoverSpindle_eq (s : State) (n : Nat) (yarn : Bool) (r : SpindleRec) (origin : SpindleState)
    (hr : s.spindle n = some r) (ho : r.heldFrom = some origin) :
    s.recoverSpindle n yarn =
      (let s1 := s.addHeldSum (s.sideOf n) (r.heldDelivery s.drive.d)
       if origin = .locked then
         s1.editSpindle n (fun r =>
           { ({ r with heldFrom := none, heldMark := none } : SpindleRec).enter .locked with notBefore := none })
       else if origin = .up ∧ yarn = true then
         s1.editSpindle n (fun r =>
           { ({ r with heldFrom := none, heldMark := none } : SpindleRec).enter .up with
             upMark := s.drive.d, notBefore := none })
       else s1.sendDown n (fun r => { r with heldFrom := none, heldMark := none })) := by
  unfold State.recoverSpindle
  simp only [hr, ho]
  cases origin <;> cases yarn <;> rfl

end Sys2Proof.Machine
end

