-- ==== Sys2Proof/Laws/Line.lean ====
section
/-! SUPPORT. What the line unit's shared operations do, each said once: the end of a frame, the test of the own HOLD, what
learning a notice does to the peer table, and the acceptance of a notice of a queued kind. -/

namespace Sys2Proof.Machine

/-! ## The end of a frame (R165, R166) -/

theorem quietFor_iff (s : State) (bits : Nat) :
    s.quietFor bits = true ↔ s.transmits = false ∧ s.line.lastTransition + bits * s.bitTime ≤ s.clock := by
  unfold State.quietFor
  rw [Bool.and_eq_true, Bool.not_eq_true', decide_eq_true_eq]

/-- A frame ends on an idle line alone; elsewhere the clock alone moves. -/
theorem receiveFrameEnd_effect {s : State} (t : Nat) (bytes : List Byte) (h : s.underWay) :
    ((s.later t).quietFor 12 = false → execReceiveFrameEnd t bytes s = .next (s.later t)) ∧
      ((s.later t).quietFor 12 = true → execReceiveFrameEnd t bytes s = .next
        (if s.line.receiving then (s.later t).lineFalls.receiveBytes bytes else (s.later t).lineFalls)) := by
  unfold execReceiveFrameEnd
  rw [whileListening_later t _ h]
  constructor <;> intro hq <;> rw [hq] <;> rfl

/-! ## The own HOLD (R179, R180) -/

/-- Everything the test of the own HOLD can do. -/
theorem testHold_effect (s : State) :
    (s.line.ownHold = none → s.freeSlots ≤ s.cfg.holdThreshold → s.testHold =
      (s.withLine { s.line with ownHold := some (s.nowMs + Config.ownHoldMs) }).hand (s.holdNotice 255)) ∧
    (s.line.ownHold = none → s.cfg.holdThreshold < s.freeSlots → s.testHold = s) ∧
    (s.line.ownHold ≠ none → s.freeSlots ≤ s.cfg.holdThreshold → s.testHold = s) ∧
    (s.line.ownHold ≠ none → s.cfg.holdThreshold < s.freeSlots → s.testHold =
      (s.withLine { s.line with ownHold := none }).hand (s.holdNotice 0)) := by
  unfold State.testHold
  cases s.line.ownHold with
  | none =>
    exact ⟨fun _ h => if_pos h, fun _ h => if_neg (Nat.not_le.mpr h), fun n => absurd rfl n, fun n => absurd rfl n⟩
  | some m =>
    exact ⟨nofun, nofun, fun _ h => if_neg (Nat.not_lt.mpr h), fun _ h => if_pos h⟩

/-! ## The peer table (R182 to R184) -/

/-- A station that has an entry keeps it, one that has none gets a new one in a free place; no other station's changes. -/
theorem makePeer_peer (s : State) (src : Nat) (old : Peer) (h : s.peer src = some old ∨
    (s.peer src = none ∧ s.line.peers.length < 32 ∧ old = newPeer src s.nowMs)) :
    (s.makePeer src).peer src = some old ∧ ∀ x, x ≠ src → (s.makePeer src).peer x = s.peer x := by
  unfold State.makePeer
  rcases h with h | ⟨h, room, rfl⟩
  · rw [h]
    exact ⟨h, fun _ _ => rfl⟩
  · rw [h]
    simp only [Option.isSome_none, Bool.false_eq_true, if_false, Config.peerSlots, room, if_true]
    unfold State.peer at h ⊢
    refine ⟨?_, fun x hx => ?_⟩
    · show List.find? _ (s.line.peers ++ _) = _
      rw [List.find?_append, h]
      simp [newPeer]
    · show List.find? _ (s.line.peers ++ _) = _
      rw [List.find?_append]
      have other : ¬(newPeer src s.nowMs).station = x := fun e => hx e.symm
      simp [other]

/-- An edit that keeps the station changes the entry of that station alone. -/
theorem editPeer_peer (s : State) (src x : Nat) (f : Peer → Peer) (kept : ∀ p, (f p).station = p.station) :
    (s.editPeer src f).peer x = if x = src then (s.peer x).map f else s.peer x := by
  unfold State.editPeer State.withPeers State.peer
  show List.find? _ (s.line.peers.map _) = _
  rw [List.find?_map]
  have same : ((fun p : Peer => p.station == x) ∘ fun p => if p.station = src then f p else p) =
      fun p => p.station == x := by
    funext p
    show ((if p.station = src then f p else p).station == x) = _
    split
    · rw [kept]
    · rfl
  rw [same]
  cases hf : s.line.peers.find? (fun p => p.station == x) with
  | none => split <;> rfl
  | some p =>
    have : p.station = x := by simpa using List.find?_some hf
    simp only [Option.map_some, this]
    split <;> rfl

theorem setKind_station (p : Peer) (k : PeerKind) : (p.setKind k).station = p.station := by
  unfold Peer.setKind
  split <;> rfl

theorem learn_station (p : Peer) (n : Notice) (now : Nat) : (p.learn n now).station = p.station := by
  unfold Peer.learn Peer.learnHello Peer.learnForecast
  cases n.kind with
  | none => rfl
  | some k =>
    cases k <;> simp only []
    all_goals repeat' split
    all_goals first | rfl | exact setKind_station _ _

/-- Learning a notice moves its sender's entry by what its kind sets, and nothing else. -/
theorem learn_effect (s : State) (n : Notice) (old : Peer) (h : s.peer n.src = some old ∨
    (s.peer n.src = none ∧ s.line.peers.length < 32 ∧ old = newPeer n.src s.nowMs)) :
    (s.learn n).peer n.src = some (old.learn n s.nowMs) ∧ (∀ x, x ≠ n.src → (s.learn n).peer x = s.peer x) ∧
      s.learn n = { s with line := { s.line with peers := (s.learn n).line.peers } } := by
  obtain ⟨own, others⟩ := makePeer_peer s n.src old h
  have kept := fun p => learn_station p n s.nowMs
  refine ⟨?_, fun x hx => ?_, ?_⟩
  · unfold State.learn
    rw [editPeer_peer _ _ _ _ kept, if_pos rfl, own]
    rfl
  · unfold State.learn
    rw [editPeer_peer _ _ _ _ kept, if_neg hx, others x hx]
  · unfold State.learn State.makePeer
    repeat' split
    all_goals rfl

/-! ## Acceptance (R176 to R178) -/

/-- A notice of a queued kind is placed, and then head notices are handed. -/
theorem accept_queued {s : State} {n : Notice} {block : Block} (active : s.start.phase = .active)
    (owner : n.owner = some block) (long : n.longEnough = true) :
    s.accept n = State.handHeads 17 (s.placeInbound n) := by
  have ha : s.active = true := by simp [State.active, active]
  unfold State.accept State.queueInbound
  rw [long, owner, ha]
  rfl

/-- Everything the placing of an accepted notice can do. -/
theorem placeInbound_effect (s : State) (n : Notice) :
    (s.freeSlots = 0 → s.placeInbound n =
      s.tallyFrame (fun c => { c with inboundOverruns := raise 255 1 c.inboundOverruns })) ∧
    (s.freeSlots ≠ 0 → n.urgent = false → s.freeSlots ≤ 2 → s.placeInbound n =
      s.tallyFrame (fun c => { c with routineDiscards := raise 255 1 c.routineDiscards })) ∧
    (s.freeSlots ≠ 0 → (n.urgent = true ∨ 2 < s.freeSlots) → s.placeInbound n =
      (s.withLine { s.line with inbound := s.line.inbound ++ [n] }).testHold) := by
  unfold State.placeInbound Config.routineFloor
  refine ⟨fun h => if_pos h, fun h u l => ?_, fun h k => ?_⟩
  · rw [if_neg h, u, decide_eq_true l]
    rfl
  · rw [if_neg h, if_neg]
    rintro hc
    obtain ⟨u, l⟩ := (Bool.and_eq_true _ _).mp hc
    rcases k with k | k
    · rw [k] at u
      cases u
    · exact Nat.not_le.mpr k (of_decide_eq_true l)

end Sys2Proof.Machine
end

