-- ==== Sys2Proof/Laws/Roving.lean ====
section
/-! SUPPORT. What the roving unit's shared operations do: a run-out and its calls, the asks, the batch timer. -/

namespace Sys2Proof.Machine

/-! ## Run-out (R32, R83) -/

/-- A key that no two elements share names one element. -/
theorem eq_of_key {α : Type} (key : α → Nat) {l : List α} (nodup : (l.map key).Nodup) {a b : α} (ha : a ∈ l)
    (hb : b ∈ l) (h : key a = key b) : a = b := by
  induction l with
  | nil => cases ha
  | cons x l ih =>
    obtain ⟨hx, hl⟩ := List.nodup_cons.mp nodup
    rcases List.mem_cons.mp ha with rfl | ha' <;> rcases List.mem_cons.mp hb with rfl | hb'
    · rfl
    · exact absurd (List.mem_map.mpr ⟨b, hb', h.symm⟩) hx
    · exact absurd (List.mem_map.mpr ⟨a, ha', h⟩) hx
    · exact ih hl ha' hb'

/-- With numbers that name one call each, ending some of the live calls leaves the others. -/
theorem endCalls_others {calls gone : List Call} (P : Call → Bool) (nodup : (calls.map (fun c => c.number)).Nodup)
    (h : gone.Perm (calls.filter P)) :
    calls.filter (fun c => gone.all (fun d => c.number != d.number)) = calls.filter (fun c => !P c) := by
  refine List.filter_congr (fun c hc => ?_)
  cases hp : P c with
  | true =>
    rw [Bool.not_true, Bool.eq_false_iff]
    intro ha
    have := List.all_eq_true.mp ha c (h.mem_iff.mpr (List.mem_filter.mpr ⟨hc, hp⟩))
    simp at this
  | false =>
    rw [Bool.not_false]
    refine List.all_eq_true.mpr (fun d hd => bne_iff_ne.mpr (fun e => ?_))
    obtain ⟨hd, hpd⟩ := List.mem_filter.mp (h.mem_iff.mp hd)
    rw [eq_of_key (fun c : Call => c.number) nodup hc hd e, hpd] at hp
    cases hp

/-- Ending calls keeps the break list, the records and all of the dispatcher but its calls. -/
theorem endCalls_pieces (s : State) (reason : CloseReason) (calls : List Call) :
    (s.endCalls reason calls).pieces =
      { s.pieces with calls := s.pieces.calls.filter (fun c => (s.inOrder calls).all (fun d => c.number != d.number)) } := by
  have h1 : ((s.inOrder calls).foldl (fun s c => s.endCall reason c) s).pieces.serial = s.pieces.serial :=
    foldl_keeps (fun s : State => s.pieces.serial) _ (by simp [State.endCall, State.freeCall, State.withCalls]) _ _
  have h2 : ((s.inOrder calls).foldl (fun s c => s.endCall reason c) s).pieces.verifyInUse = s.pieces.verifyInUse :=
    foldl_keeps (fun s : State => s.pieces.verifyInUse) _ (by simp [State.endCall, State.freeCall, State.withCalls]) _ _
  have eta : ∀ p : Dispatcher, p.serial = s.pieces.serial → p.verifyInUse = s.pieces.verifyInUse →
      p = { s.pieces with calls := p.calls } := fun p a b => by
    show p = ⟨p.calls, s.pieces.serial, s.pieces.verifyInUse⟩
    rw [← a, ← b]
  rw [← endCalls_left reason (s.inOrder calls) s]
  exact eta _ h1 h2

/-- R32, R63, R83, R84: everything that a run-out does to the spindles of its section and to their calls; one walk follows
if a slot was freed. -/
theorem runOutSpindles_effect (s : State) (creel : Nat) (nodup : (s.pieces.calls.map (fun c => c.number)).Nodup) :
    ∃ (ended : List Call) (s1 : State),
      ended.Perm (s.pieces.calls.filter (fun c => s.sectionOf c.spindle == creel)) ∧
      ended.Pairwise (fun a b => a.openedAt ≤ b.openedAt) ∧
      s.runOutSpindles creel = (if ended = [] then s1 else s1.walk) ∧
      s1.pieces = { s.pieces with calls := s.pieces.calls.filter (fun c => s.sectionOf c.spindle != creel) } ∧
      s1.line = (s.handAll (ended.map (s.endingNotice 6#8))).line ∧
      s1.tally = (s.handAll (ended.map (s.endingNotice 6#8))).tally ∧
      (∀ n r, s.spindle n = some r → s1.spindle n = some
        (if s.sectionOf n = creel ∧ r.state.mayRunOut = true then
          { r.enter .runOut with call := none, notBefore := none }
         else r)) ∧
      s1.table.breakList = s.table.breakList ∧ s1.roving = s.roving ∧ s1.drive = s.drive ∧ s1.frame = s.frame ∧
      s1.clock = s.clock ∧ s1.start = s.start := by
  obtain ⟨hp, hs⟩ := inOrder_oldestFirst s (s.pieces.calls.filter (fun c => s.sectionOf c.spindle == creel))
  refine ⟨s.inOrder (s.pieces.calls.filter (fun c => s.sectionOf c.spindle == creel)),
    (s.endCalls .runOut (s.pieces.calls.filter (fun c => s.sectionOf c.spindle == creel))).editSpindles
      (fun n r =>
        if s.sectionOf n = creel && r.state.mayRunOut then
          { r.enter .runOut with call := none, notBefore := none }
        else r),
    hp, hs, ?_, ?_, ?_, ?_, ?_, ?_, ?_⟩
  · have he : (s.pieces.calls.filter (fun c => s.sectionOf c.spindle == creel)).isEmpty = true ↔
        s.inOrder (s.pieces.calls.filter (fun c => s.sectionOf c.spindle == creel)) = [] := by
      rw [List.isEmpty_iff]
      exact ⟨fun h => List.Perm.eq_nil (h ▸ hp), fun h => List.Perm.nil_eq (h ▸ hp) |>.symm⟩
    unfold State.runOutSpindles
    by_cases h : s.inOrder (s.pieces.calls.filter (fun c => s.sectionOf c.spindle == creel)) = []
    · simp only [he.mpr h, h, if_true]
    · simp only [h, if_false]
      rw [if_neg (fun hc => h (he.mp hc))]
  · simp only [editSpindles_frame, endCalls_pieces]
    rw [endCalls_others _ nodup hp]
    rfl
  · simp only [editSpindles_frame]
    exact (endCalls_notices .runOut 6#8 rfl _ s).1
  · simp only [editSpindles_frame]
    exact (endCalls_notices .runOut 6#8 rfl _ s).2
  · intro n r hr
    have hk : (s.endCalls .runOut (s.pieces.calls.filter (fun c => s.sectionOf c.spindle == creel))).spindle n =
        some r := by
      simpa [State.spindle] using hr
    rw [spindle_editSpindles, hk]
    simp
  · simp
  · simp

/-! ## Reports of breaks (R130, R131) -/

theorem joinRecent_full {breaks : List Nat} (now : Nat) (h : breaks.length ≤ 12) :
    joinRecent breaks now = (if breaks.length = 12 then breaks.tail else breaks) ++ [now] := by
  unfold joinRecent
  split
  · next e =>
    cases breaks with
    | nil => cases e
    | cons a l => rw [e]; rfl
  · rw [show breaks.length + 1 - 12 = 0 by omega, List.drop_zero]

/-- Which record of a section a change of that section leaves. -/
theorem supply_editSupply (s : State) (creel : Nat) (f : SupplyRec → SupplyRec)
    (keeps : ∀ r, (f r).creel = r.creel) : (s.editSupply creel f).supply creel = (s.supply creel).map f := by
  unfold State.editSupply State.editSupplies State.supply
  simp only [withRoving_roving, List.find?_map]
  have : ((fun r : SupplyRec => r.creel == creel) ∘ fun r => if r.creel = creel then f r else r) =
      fun r => r.creel == creel := by
    funext r
    simp only [Function.comp]
    split <;> simp [keeps]
  rw [this]
  cases h : s.roving.recs.find? (fun r => r.creel == creel) with
  | none => rfl
  | some r =>
    have := List.find?_some h
    simp only [beq_iff_eq] at this
    simp [this]

/-! ## Asks (R123, R124, R133) -/

/-- The asks of some records touch the ask sequence, the urgent queue and the send failures alone. -/
theorem handAsks_recs (s : State) (recs : List SupplyRec) :
    (s.handAsks recs).roving.recs = s.roving.recs ∧ (s.handAsks recs).roving.batchDue = s.roving.batchDue := by
  unfold State.handAsks
  exact ⟨foldl_keeps (fun s : State => s.roving.recs) _ (by simp [State.handAsk]) _ _,
    foldl_keeps (fun s : State => s.roving.batchDue) _ (by simp [State.handAsk]) _ _⟩

/-- Eight digits read as one binary number: the bit `j` places below the top is digit `j` (R202). -/
theorem digits_bit : ∀ a b c d e f g h : Bool, ∀ j : Fin 8,
    (BitVec.ofNat 8 ([a, b, c, d, e, f, g, h].foldl (fun sum x => 2 * sum + (if x = true then 1 else 0)) 0)).getLsbD
      (7 - j.val) = [a, b, c, d, e, f, g, h].getD j.val false := by decide +kernel

/-- R123: sorting puts records in the order in which they are asked for. -/
theorem sortBy_inAskOrder (recs : List SupplyRec) : inAskOrder (sortBy askBefore recs) recs := by
  refine ⟨sortBy_perm _ _, sortBy_pairwise (R := SupplyRec.aheadOf) (fun a b c => ?_) (fun a b => ?_) (fun a b => ?_) _⟩ <;>
    unfold SupplyRec.aheadOf
  · cases a.time <;> cases b.time <;> cases c.time <;> simp only [false_implies, implies_true, true_implies] <;> omega
  all_goals
    unfold askBefore
    cases a.time <;> cases b.time <;> simp <;> omega

/-- With numbers that name one record each, a record's number is among those of the records chosen if it is chosen. -/
theorem contains_chosen {recs : List SupplyRec} (choose : SupplyRec → Bool) (nodup : (recs.map (fun r => r.creel)).Nodup)
    {r : SupplyRec} (hr : r ∈ recs) : ((recs.filter choose).map (fun r => r.creel)).contains r.creel = choose r := by
  cases hc : choose r with
  | true => exact List.elem_eq_true_of_mem (List.mem_map.mpr ⟨r, List.mem_filter.mpr ⟨hr, hc⟩, rfl⟩)
  | false =>
    rw [Bool.eq_false_iff]
    intro hm
    obtain ⟨q, hq, e⟩ := List.mem_map.mp (List.mem_of_elem_eq_true hm)
    obtain ⟨hq, hqc⟩ := List.mem_filter.mp hq
    rw [eq_of_key (fun r : SupplyRec => r.creel) nodup hq hr e, hc] at hqc
    cases hqc

/-- R134: a change of every record, after which the records chosen are asked for again: one change of the records, and the
notices for the chosen ones in the order of R123. -/
theorem askAgain_chosen (s : State) (choose : SupplyRec → Bool) (g again : SupplyRec → SupplyRec)
    (nodup : (s.roving.recs.map (fun r => r.creel)).Nodup) (keeps : ∀ r, (g r).creel = r.creel)
    (asks : ∀ r, again r = { g r with asks := 1, eta := none, retryAt := some s.answerEnd }) :
    (s.editSupplies g).askAgain ((s.roving.recs.filter choose).map (fun r => r.creel)) =
      (s.editSupplies (fun r => if choose r then again r else g r)).handAsks
        (sortBy askBefore ((s.roving.recs.filter choose).map again)) := by
  have twice : (s.editSupplies g).editSupplies (fun r =>
      if ((s.roving.recs.filter choose).map (fun r => r.creel)).contains r.creel then
        { r with asks := 1, eta := none, retryAt := some (s.editSupplies g).answerEnd } else r) =
      s.editSupplies (fun r => if choose r then again r else g r) := by
    unfold State.editSupplies
    simp only [withRoving_roving, List.map_map]
    refine congrArg (fun recs => s.withRoving { s.roving with recs := recs }) (List.map_congr_left (fun r hr => ?_))
    simp only [Function.comp, keeps, contains_chosen choose nodup hr, asks]
    rfl
  have among : (s.editSupplies (fun r => if choose r then again r else g r)).suppliesAmong
      ((s.roving.recs.filter choose).map (fun r => r.creel)) = (s.roving.recs.filter choose).map again := by
    unfold State.suppliesAmong State.editSupplies
    rw [withRoving_roving, List.filter_map]
    have keepsAll : ∀ r, (if choose r then again r else g r).creel = r.creel := fun r => by
      split
      · rw [asks]
        exact keeps r
      · exact keeps r
    rw [List.filter_congr (fun r hr => by
      simp only [Function.comp, keepsAll]
      exact contains_chosen choose nodup hr)]
    refine List.map_congr_left (fun r hr => ?_)
    rw [if_pos (List.mem_filter.mp hr).2]
  unfold State.askAgain
  simp only [twice, among]

/-- The bits of a mask byte are the listed sections of its eight (R202). -/
theorem maskByte_bit (listed : List Nat) (k j : Nat) (h : j < 8) :
    (maskByte listed k).getLsbD (7 - j) = listed.contains (8 * k + j + 1) := by
  have value : maskByte listed k = BitVec.ofNat 8
      (((List.range 8).map (fun i => listed.contains (8 * k + i + 1))).foldl
        (fun sum x => 2 * sum + (if x = true then 1 else 0)) 0) := by
    rw [List.foldl_map]
    rfl
  rw [value]
  refine Eq.trans (digits_bit _ _ _ _ _ _ _ _ ⟨j, h⟩) ?_
  show ((List.range 8).map (fun i => listed.contains (8 * k + i + 1))).getD j false = _
  rw [List.getD_eq_getElem?_getD, List.getElem?_map, List.getElem?_range h]
  rfl

/-- R124, R202: a ROVING-ASK lists exactly the sections of the records it is built for. -/
theorem askPayload_lists (n : Notice) (strap : Nat) (recs : List SupplyRec) (h : n.payload = askPayload strap recs)
    (k : Nat) (low : 1 ≤ k) (high : k ≤ 48) : n.lists k ↔ ∃ r ∈ recs, r.creel = k := by
  have hk : (k - 1) / 8 < 6 := by omega
  have hb : n.payload.getD (1 + (k - 1) / 8) 0#8 = maskByte (recs.map (fun r => r.creel)) ((k - 1) / 8) := by
    rw [h]
    unfold askPayload byteField
    rw [List.append_assoc, List.singleton_append, Nat.add_comm, List.getD_cons_succ, List.getD_eq_getElem?_getD,
      List.getElem?_append_left (by simpa using hk), List.getElem?_map, List.getElem?_range hk]
    rfl
  unfold Notice.lists
  rw [hb, maskByte_bit _ _ _ (Nat.mod_lt _ (by decide)), show 8 * ((k - 1) / 8) + (k - 1) % 8 + 1 = k by omega]
  simp

end Sys2Proof.Machine
end

