-- ==== Sys2Proof/Tests/Slice0.lean ====
section
/-! SUPPORT. Tests: the well-formedness smoke, the spec's worked values, one small run of each command, and for every
statement with hypotheses a state and operands that meet them. -/

namespace Sys2Proof.Tests

open Sys2Proof Sys2Proof.Machine

set_option Elab.async false

/-! ## Helpers -/

/-- The state an effect goes to; the state after reset when it goes to none. -/
def after (e : Effect) : State :=
  match e with
  | .next s => s
  | .fault _ => State.reset
  | .refused _ => State.reset

/-- The state after one command. -/
def run1 (c : Instr) (s : State) : State := after (exec c s)

/-- The state after some commands, one after another. -/
def runs (cs : List Instr) (s : State) : State := cs.foldl (fun s c => run1 c s) s

/-- The settings of the worked case of ch. 03, two sides of one section, defaults elsewhere, and the limits of the
worked sequences of ch. 04 and 06. -/
def cfgT : Settings :=
  { sectionsA := 1, sectionsB := 1, chainClock := 3, lineRate := 2, dofferGroup := 4, dofferStation := 80,
    railStation := 90, scanInterval := 50, kDown := 3, kUp := 2, detectDelay := 5, pulses := 16,
    circumference := 8482, draft := 3850, tex := 740, copLength := 3600,
    profile := [⟨0, 12000⟩, ⟨50, 15500⟩, ⟨800, 16500⟩, ⟨950, 15000⟩, ⟨1000, 14000⟩],
    sMin := 8000, sMax := 20000, sFull := 25000, rampStep := 500, maxTrim := 60, openCallLimit := 2,
    settleTime := 5, repeatInterval := 15, piecingTimeout := 60, verifyWindow := 3, recallDelay := 30,
    maxAttempts := 3, restartGrace := 120, positionTimeout := 90, doffingTimeout := 12, forecastInterval := 2,
    slotWidth := 15, claimFill := 970, dofferLead := 10, railLead := 60, lookahead := 30, batchDelay := 45,
    clusterCount := 6, laidMetres := 1800, rogueThreshold := 8, holdThreshold := 5 }

/-- An image of those settings, every default spelt by its all-ones code (R192, R203). -/
def imageT : List Byte :=
  ([1, 1, 1, 3, 2, 4, 80, 90, 50, 3, 2, 5, 16, 33, 34, 15] ++
    [10, 2, 228, 14, 16, 5, 0, 0, 46, 224, 0, 50, 60, 140, 3, 32] ++
    [64, 116, 3, 182, 58, 152, 3, 232, 54, 176] ++ List.replicate 12 0 ++
    [31, 64, 78, 32, 97, 168, 255, 255, 255, 2] ++ List.replicate 19 255 ++ [0, 45] ++ List.replicate 5 255 ++
    List.replicate 37 0 ++ [116]).map (BitVec.ofNat 8)

/-- A carriage that patrols frame 17. -/
def carriage (station lastHeard : Nat) : Peer :=
  { station := station, kind := .piecer, group := none, patrol := [17], lastHeard := lastHeard, holdUntil := none,
    forecast := none }

/-- A frame of doffer group 4 with a forecast. -/
def frameT (station minutes received : Nat) (mode : FrameMode) : Peer :=
  { station := station, kind := .frame, group := some 4, patrol := [], lastHeard := received, holdUntil := none,
    forecast := some ⟨minutes, received, mode⟩ }

/-- Frame 17 running at frame second 1,000 with carriages 61 and 62, its update tick due at once. -/
def base : State :=
  { State.reset with
    clock := 1000000000
    minutesBegun := 16
    start := { phase := .active, phaseStart := 2010560, fresh := true, strap := 17, image := imageT,
               settings := cfgT, keptA := 1, keptB := 1 }
    pins := { Pins.idle with runPermit := true }
    chain := { ChainUnit.fresh 3 3 [] [] with
      sideA := { SideChain.fresh 3 [] with scanDue := some 1000000000 }
      sideB := { SideChain.fresh 3 [] with scanDue := some 1000000000 }
      rollerBegan := some 900000 }
    table := { recs := List.replicate 48 (SpindleRec.fresh 0), breakList := [], heldA := 0, heldB := 0 }
    pieces := { calls := [], serial := 305, verifyInUse := 3000 }
    drive := { DriveUnit.fresh 16453 0 with
      d := 27540, tickMark := 27510, buckets := [30, 30, 29, 30, 30, 29], eligible := true, rate := some 178,
      turning := true, lastPulse := 999990000, fill := 765, measured := 48, natural := 48, dutyWaiting := 674,
      dutyRunning := 674, pwmNext := 1000000000, tickDue := some 1000000000 }
    frame := { FrameUnit.fresh with mode := .running, forecastDue := some 1000000000, lastForecast := some 48 }
    roving := { recs := [SupplyRec.fresh 1 0 18000, SupplyRec.fresh 25 0 18000], batchDue := none, askSeq := 1 }
    line := { LineUnit.fresh 17 0 with
      lastTransition := 999000000, isolationStart := 999000000
      peers := [carriage 61 999000, carriage 62 999000] } }

/-- A spindle record put in the place of another. -/
def withRec (s : State) (n : Nat) (r : SpindleRec) : State :=
  { s with table := { s.table with recs := s.table.recs.set (n - 1) r } }

/-- `base` in another mode. -/
def inMode (m : FrameMode) : State := { base with frame := { base.frame with mode := m } }

/-- `base` with a full cop in a mode of the doff. -/
def fullIn (m : FrameMode) : State :=
  { inMode m with drive := { base.drive with fill := 1000, fullLatch := true, d := 36000 } }

/-- `base` in another phase. -/
def inPhase (p : Phase) : State := { base with start := { base.start with phase := p, phaseStart := 0 } }

/-- `base` with a pass in flight since a moment long past. -/
def inFlight (p : Pass) (frames : List PendingFrame) : State :=
  { base with chain := { base.chain with flight := some { pass := p, since := 0, frames := frames, bits := [] } } }

/-- A passing module frame with yarn at all positions but some. -/
def frameBut (missing : List Nat) : PendingFrame :=
  { yarn := (List.range 8).map (fun q => !missing.contains (q + 1)), passing := true }

/-- A live call of number 305 for spindle 5. -/
def callT (state : CallState) : Call :=
  { number := 305, spindle := 5, state := state, carriage := if state == .opened then none else some 61,
    openedAt := 990000, repeats := 0, takenAt := if state == .opened then none else some 990000,
    verifyUntil := if state == .verify then some 995000 else none }

/-- `base` with that call live. -/
def calledT (state : CallState) : State :=
  withRec { base with
      pieces := { base.pieces with calls := [callT state], serial := 306 }
      table := { base.table with breakList := [5] } } 5
    { SpindleRec.fresh 0 with state := if state == .opened then .called else .taken, call := some 305,
                              downSince := 980 }

/-- `base` with the supply record of section 1 replaced. -/
def supplyT (f : SupplyRec → SupplyRec) : State :=
  { base with roving := { base.roving with recs := [f (SupplyRec.fresh 1 0 18000), SupplyRec.fresh 25 0 18000] } }

/-- A notice from another station to this part. -/
def fromT (src : Nat) (kind : Kind) (reference : Nat) (payload : List Byte) : Notice :=
  { dst := 17, src := src, kind := some kind, fresh := false, reference := reference, payload := payload }

/-! ## Well-formedness -/

/-- For each check of `wellFormed`, a command that fails it alone. -/
def illFormed : List Instr :=
  [.powerOn 256, .resetRelease 256, .configurationReadEnd 0 (List.replicate 127 0#8), .unlock 0 65536,
   .callRepeat 0 65536, .withdrawnUntaken 0 65536, .take 0 0 1 1, .take 0 240 1 1, .take 0 61 65536 1,
   .take 0 61 1 65536, .done 0 0 1 1 1 0, .done 0 61 65536 1 1 0, .done 0 61 1 65536 1 0, .done 0 61 1 1 256 0,
   .done 0 61 1 1 1 256, .piecingTimeout 0 65536, .verifyWindowCloses 0 65536] ++
  [.doffStart 0 0, .doffEnd 0 240, .doffAbort 0 0, .doffQueued 0 0 1, .doffQueued 0 80 256, .doffGrant 0 240 1,
   .doffGrant 0 80 256, .rovingAck 0 0 1 [], .rovingAck 0 90 256 [], .rovingAck 0 90 1 (List.replicate 32 1),
   .rovingAck 0 90 1 [256], .rovingDefer 0 0 1 [], .rovingDefer 0 90 256 [],
   .rovingDefer 0 90 1 (List.replicate 32 1), .rovingDefer 0 90 1 [256], .rovingLaid 0 0 1 1,
   .rovingLaid 0 90 256 1, .rovingLaid 0 90 1 65536] ++
  [.shiftChange 0 0 1 2 3, .shiftChange 0 230 65536 2 3, .shiftChange 0 230 1 65536 3,
   .shiftChange 0 230 1 2 4294967296, .tallyQuery 0 0 1, .tallyQuery 0 230 65536, .hold 0 0 1, .hold 0 61 256,
   .hello 0 0 1 1 true, .hello 0 61 256 1 true, .hello 0 61 1 256 true, .patrol 0 0 [],
   .patrol 0 61 (List.replicate 33 1), .patrol 0 61 [256], .forecast 0 0 1 1 1 1, .forecast 0 21 256 1 1 1,
   .forecast 0 21 1 256 1 1, .forecast 0 21 1 1 65536 1, .forecast 0 21 1 1 1 65536, .peerHoldExpiry 0 0]

theorem test_illFormed_refused : illFormed.all (fun i => !i.wellFormed) = true := by decide +kernel

/-- The same commands with their operands at the greatest values the fields carry. -/
def wellFormedT : List Instr :=
  [.powerOn 255, .resetRelease 255, .configurationReadEnd 0 imageT, .unlock 0 65535, .callRepeat 0 65535,
   .withdrawnUntaken 0 65535, .take 0 239 65535 65535, .done 0 1 65535 65535 255 255, .piecingTimeout 0 65535,
   .verifyWindowCloses 0 65535, .doffStart 0 1, .doffEnd 0 239, .doffAbort 0 1, .doffQueued 0 239 255,
   .doffGrant 0 1 255, .rovingAck 0 239 255 (List.replicate 31 255), .rovingDefer 0 1 255 (List.replicate 31 255),
   .rovingLaid 0 239 255 65535, .shiftChange 0 1 65535 65535 4294967295, .tallyQuery 0 239 65535, .hold 0 1 255,
   .hello 0 239 255 255 true, .patrol 0 1 (List.replicate 32 255), .forecast 0 239 255 255 65535 65535,
   .peerHoldExpiry 0 239]

theorem test_greatest_operands_wellFormed : wellFormedT.all Instr.wellFormed = true := by decide +kernel

/-! ## The spec's worked values -/

theorem test_image_reads_as_settings :
    configurationGood 17 imageT = true ∧ settingsOf imageT = cfgT ∧ imageOf imageT = imageT := by decide +kernel

/-- Each check of R191 and R193 fails on an image that breaks it alone (the sum kept at 0). -/
def breakImage (k v : Nat) : List Byte :=
  let old := byteAt imageT k
  (imageT.set k (BitVec.ofNat 8 v)).set 127 (BitVec.ofNat 8 (116 + old + 256 - v))

theorem test_each_check_faults :
    configurationGood 0 imageT = false ∧ configurationGood 240 imageT = false ∧
      configurationGood 80 imageT = false ∧ configurationGood 17 (imageT.set 100 1#8) = false ∧
      [(0, 2), (1, 0), (1, 25), (2, 25), (3, 4), (4, 3), (5, 0), (6, 0), (6, 240), (7, 17), (21, 1), (21, 9),
       (23, 1), (27, 0), (54, 90), (58, 10)].all
        (fun p => !configurationGood 17 (breakImage p.1 p.2)) = true := by decide +kernel

/-- Ch. 03, Worked case: fill, rate, forecasts, trim, speed and duty. -/
theorem test_worked_drive :
    ({ base.drive with fill := 0 }.fillNow cfgT) = 765 ∧ rateOf [30, 29, 30, 30, 29, 30] = some 178 ∧
      base.drive.measuredNow cfgT = 48 ∧ base.drive.naturalNow cfgT 0 = 48 ∧
      { base.drive with d := 27569, rate := some 177 }.naturalNow cfgT 60 = 45 ∧
      trimFor cfgT 48 [40] = 60 ∧ trimFor { cfgT with maxTrim := 1000 } 48 [40] = 128 ∧
      profileSpeed 765 cfgT.profile = 16453 ∧ trimmedSpeed 16453 60 = 15465 ∧
      ramp 16453 15465 500 = 15953 ∧ ramp 15953 15465 500 = 15465 ∧
      dutyOf cfgT 16453 = 674 ∧ dutyOf cfgT 15953 = 653 ∧ dutyOf cfgT 15465 = 633 ∧ dutyOf cfgT 8500 = 348 ∧
      profileSpeed 701 [⟨0, 12000⟩, ⟨700, 16000⟩, ⟨1000, 15000⟩] = 15996 := by decide +kernel

/-- Ch. 03, Worked case: the tick itself, with a peer 8 minutes ahead, and the tick after it. -/
theorem test_worked_ticks :
    let s := { base with line := { base.line with peers := [frameT 21 40 999990 .running] } }
    let s1 := run1 (.updateTick 1000000000) s
    let s2 := run1 (.updateTick 1010000000) { s1 with drive := { s1.drive with d := 27569 } }
    (s1.drive.rate, s1.drive.measured, s1.frame.trim, s1.drive.speed, s1.drive.dutyWaiting, s1.drive.dutyRunning) =
        (some 178, 48, 60, 15953, 653, 674) ∧
      (s2.drive.rate, s2.drive.measured, s2.drive.natural, s2.frame.trim, s2.drive.speed, s2.drive.dutyWaiting) =
        (some 177, 48, 45, 60, 15465, 633) := by decide +kernel

/-- R49: the natural forecast takes the trim of the previous tick, also when a claim has set the held trim to 0 since; a tick
keeps its trim for the next, and a doff sets it to 0. -/
theorem test_trim_of_the_previous_tick :
    let s := { base with
      drive := { base.drive with d := 27569, tickMark := 27540, buckets := [30, 29, 30, 30, 29, 30], trimGiven := 60 }
      line := { base.line with peers := [frameT 21 40 999990 .running] } }
    let t := run1 (.updateTick 0) s
    let c := run1 (.updateTick 0) { s with frame := { s.frame with claim := Claim.madeAt 995000000 .none } }
    let d := run1 (.doffEnd 0 80) { fullIn .doffing with drive := { (fullIn .doffing).drive with trimGiven := 60 } }
    s.frame.trim = 0 ∧ (t.drive.measured, t.drive.natural, t.drive.trimGiven, t.frame.trim) = (48, 45, 60, 60) ∧
      (c.drive.natural, c.drive.trimGiven, c.frame.trim) = (45, 0, 0) ∧
      d.drive.trimGiven = 0 ∧ d.drive.natural = d.drive.measured := by decide +kernel

/-- Ch. 03, A restart after the doff: the entry update runs up from S_min. -/
theorem test_worked_restart :
    ({ base.drive with fill := 0 }.enterMode cfgT 0 .doffing .restart).speed = 8500 := by decide +kernel

/-- Ch. 04 and 02: where spindles 230 and 611 of a 24-section frame stand (R1, R24). -/
theorem test_worked_places :
    let s := { base with start := { base.start with settings := { cfgT with sectionsA := 24, sectionsB := 24 } } }
    (s.sideOf 230, s.moduleOf 230, s.positionOf 230, s.sectionOf 230) = (.A, 29, 6, 10) ∧
      (s.sideOf 611, s.moduleOf 611, s.sectionOf 611) = (.B, 5, 26) ∧
      (s.moduleOf 412, s.sectionOf 412) = (52, 18) := by decide +kernel

/-- Ch. 01, Pass order: the lengths of the passes in bits. -/
theorem test_worked_pass_bits :
    let s := { base with start := { base.start with settings := { cfgT with sectionsA := 24, sectionsB := 16 } } }
    (s.passBits ⟨.A, .sense⟩, s.passBits ⟨.A, .drive⟩, s.passBits ⟨.B, .sense⟩, s.passBits ⟨.B, .drive⟩) =
      (660, 1152, 444, 768) := by decide +kernel

/-- Ch. 01, A module goes blind and recovers: suspect, recovery and blind after each of the 19 passes. -/
theorem test_worked_blind_module :
    ([true, false, false, true, false, false, false, true, true, true, false, true, true, true, true, true, true,
        true, true].foldl
      (fun (l : List ModuleRec) good =>
        let m := l.headD ModuleRec.fresh
        (if good then m.good else m.bad) :: l) []).reverse.map (fun m => (m.suspect, m.recovery, m.blind)) =
      [(0, 0, false), (1, 0, false), (2, 0, false), (0, 0, false), (1, 0, false), (2, 0, false), (3, 0, true),
       (0, 1, true), (0, 2, true), (0, 3, true), (1, 0, true), (0, 1, true), (0, 2, true), (0, 3, true),
       (0, 4, true), (0, 5, true), (0, 6, true), (0, 7, true), (0, 0, false)] := by decide +kernel

/-- Ch. 01, Debounce of one end: passes 21 to 27 in UP, passes 28 to 30 in CALLED. -/
theorem test_worked_debounce :
    (([true, false, false, true, false, false, false].foldl
        (fun (p : SpindleRec × List (Nat × Option Bool)) yarn =>
          let q := debounceRec cfgT p.1 yarn
          (q.1, p.2 ++ [(q.1.run, q.2)])) (SpindleRec.fresh 0, [])).2 =
      [(0, none), (1, none), (2, none), (0, none), (1, none), (2, none), (0, some false)]) ∧
    (([false, true, true].foldl
        (fun (p : SpindleRec × List (Nat × Option Bool)) yarn =>
          let q := debounceRec cfgT p.1 yarn
          (q.1, p.2 ++ [(q.1.run, q.2)])) ({ SpindleRec.fresh 0 with state := .called }, [])).2 =
      [(0, none), (1, none), (0, some true)]) := by decide +kernel

/-- Ch. 04, Worked piecing sequence, its first walk: calls 305 and 306 open, the limit of 2 leaves the third end. -/
theorem test_worked_walk :
    let down (since : Nat) : SpindleRec := { SpindleRec.fresh 0 with state := .down, downSince := since }
    let s := withRec (withRec (withRec { base with table := { base.table with breakList := [5, 30, 40] } } 5
      (down 990)) 30 (down 995)) 40 (down 990)
    (s.walk.pieces.calls.map (fun c => (c.number, c.spindle, c.state)) =
        [(305, 5, .opened), (306, 30, .opened)]) ∧ s.walk.pieces.serial = 307 ∧
      s.walk.line.routine.map (fun n => (n.kind, n.dst, n.reference)) =
        [(some .call, 255, 305), (some .call, 255, 306)] := by decide +kernel

/-- Ch. 05, Worked stagger: frames 22 and 23 of the first and the third view, trims before the cut to max trim. -/
theorem test_worked_stagger :
    let view (strap natural : Nat) (peers : List Peer) : Nat × List Nat :=
      let s : State := { base with
        clock := 1000000000
        start := { base.start with strap := strap, settings := { cfgT with maxTrim := 1000 } }
        line := { base.line with peers := peers } }
      (trimFor s.cfg natural (s.yieldedTo natural), s.yieldedTo natural)
    view 21 40 [frameT 22 49 916000 .running, frameT 23 53 964000 .running, frameT 24 20 550000 .running] = (0, []) ∧
      view 22 48 [frameT 21 41 934000 .running, frameT 23 53 964000 .running] = (128, [40]) ∧
      view 23 52 [frameT 21 41 886000 .running, frameT 22 49 916000 .running] = (175, [40, 48]) ∧
      view 22 33 [frameT 21 25 928000 .running, frameT 23 34 910000 .running] = (154, [24]) ∧
      view 23 33 [frameT 21 25 892000 .running, frameT 22 34 922000 .running] = (313, [24, 33]) ∧
      view 22 11 [frameT 21 0 990000 .fullStop, frameT 23 13 990000 .running] = (267, [0]) ∧
      view 23 12 [frameT 21 0 990000 .fullStop, frameT 22 12 958000 .running] = (556, [0, 12]) := by decide +kernel

/-- Ch. 06, Worked estimate: the remaining roving and the time to run-out. -/
theorem test_worked_estimate :
    (SupplyRec.fresh 1 0 18000).estimate 60000#32 3850 = 16442 ∧
      timeToRunOut 16442 .none (some 178) 3850 = some 3556 ∧ timeToRunOut 277 .due (some 178) 3850 = some 59 ∧
      timeToRunOut 407 .none (some 178) 3850 = some 88 := by decide +kernel

/-- Ch. 07, Worked close: efficiency, mass and the rogue list. -/
theorem test_worked_close :
    efficiencyOf 47950000 49208640 = 974 ∧ efficiencyOf 48302100 49213440 = 981 ∧ massOf 47950000 740 = 35483 ∧
      massOf 48302100 740 = 35743 ∧ efficiencyOf 295800 303312 = 975 ∧
      roguesOf 8 ([⟨37, 11⟩, ⟨118, 8⟩, ⟨230, 9⟩, ⟨412, 9⟩, ⟨503, 8⟩, ⟨504, 7⟩].map (fun (g : Rogue) =>
          ({ spindle := g.spindle, breaks := g.breaks, length := 0, locked := false } : SpindleShare))) =
        [⟨37, 11⟩, ⟨230, 9⟩, ⟨412, 9⟩, ⟨118, 8⟩] := by decide +kernel

/-- Ch. 07, A reused number: the closed shift joins a ring whose record of the opening number goes first. -/
theorem test_worked_reused_number :
    let c (n : Nat) : ClosedShift :=
      { shift := { OpenShift.first with number := n }, closedAt := 0, valuesA := ⟨true, 0, 0, 0, [], 0⟩,
        valuesB := ⟨true, 0, 0, 0, [], 0⟩ }
    (placeInRing [c 409, c 410, c 411, c 412] (c 413) 410).map (fun r => r.shift.number) = [409, 411, 412, 413] ∧
      (placeInRing [c 408, c 409, c 410, c 411] (c 412) 413).map (fun r => r.shift.number) =
        [409, 410, 411, 412] := by decide +kernel

/-- Ch. 09, Worked starts: the cold start's moments, the generator's seed and the verify windows in use. -/
theorem test_worked_cold_start :
    let s1 := run1 (.powerOn 17) base
    let s2 := run1 (.configurationReadEnd 10560 imageT) s1
    let s3 := run1 (.becomingActive 2010560) s2
    (s1.start.phase, s2.start.phase, s3.start.phase) = (.reading, .listening, .active) ∧
      s2.line.lfsr = 4369#16 ∧ s2.pieces.verifyInUse = 3000 ∧ s3.drive.tickDue = some 12010560 ∧
      s3.chain.sideA.scanDue = some 2060560 ∧ (s3.line.urgent.map (fun n => (n.kind, n.fresh))) =
        [(some .hello, true)] ∧ (s3.line.routine.map (fun n => n.kind)) = [some .forecast] ∧
      verifyWindowInUse { cfgT with verifyWindow := 1, kUp := 5, scanInterval := 250 } = 1500 := by decide +kernel

/-- Ch. 08, Two frames answer one query: a TALLY-NONE is 88 bits long; the check of its frame is accepted. -/
theorem test_worked_notice_length :
    let n := base.notice .tallyNone 230 408 []
    n.bitCount = 88 ∧ n.wireBits.length = 88 ∧ goodFrame n.bytes = true ∧ noticeOf n.bytes = n := by decide +kernel

/-! ## One small run of each command -/

theorem test_powerOn : (run1 (.powerOn 17) base).start.phase = .reading ∧ (run1 (.powerOn 17) base).clock = 0 ∧
    (run1 (.powerOn 17) base).table.recs = [] := by decide +kernel

/-- R195, R196, R204: supply that comes while the reset pin is asserted, the release that makes the start warm, and the level
of the pin without supply. -/
theorem test_powerOn_inReset :
    let off := run1 (.resetAssert 0) (run1 .supplyLost base)
    let s := run1 (.powerOn 17) off
    let r := run1 (.resetRelease 17) s
    (off.start.phase, off.pins.reset) = (.off, true) ∧ (run1 (.resetRelease 17) off).pins.reset = false ∧
      (s.start.phase, s.start.fresh, s.pins.reset) = (.inReset, false, true) ∧
      (r.start.phase, r.start.fresh, r.pins.reset) = (.reading, false, false) ∧ s.configPins.selected = false ∧
      r.configPins.selected = true := by decide +kernel

theorem test_resetAssert :
    let s := run1 (.resetAssert 1000000007) base
    s.start.phase = .inReset ∧ s.clock = 1000000007 ∧ s.drive.d = 27540#32 ∧ s.drive.rate = none ∧
      s.frame.mode = .halted ∧ s.table.recs.length = 48 := by decide +kernel

theorem test_resetRelease :
    let s := run1 (.resetRelease 18) (inPhase .inReset)
    s.start.phase = .reading ∧ s.start.strap = 18 ∧ s.start.fresh = false ∧ s.clock = 1000000000 ∧
      s.line.lfsr = 4626#16 := by decide +kernel

theorem test_configurationReadEnd :
    let s := run1 (.configurationReadEnd 10560 imageT) (inPhase .reading)
    let f := run1 (.configurationReadEnd 10560 (imageT.set 0 2#8)) (inPhase .reading)
    s.start.phase = .listening ∧ s.drive.fill = 765 ∧ s.drive.speed = 8000 ∧ f.start.phase = .configFault ∧
      f.table = base.table := by decide +kernel

theorem test_becomingActive :
    let s := run1 (.becomingActive 2000000) { inPhase .listening with clock := 0 }
    s.start.phase = .active ∧ s.drive.tickDue = some 12000000 ∧ s.chain.sideB.scanDue = some 2050000 ∧
      (s.line.urgent.map (fun n => (n.kind, n.dst))) = [(some .hello, 255)] := by decide +kernel

theorem test_frameMinute :
    let s := run1 (.frameMinute 1020000000) { inMode .stopped with
      chain := { base.chain with sideA := { base.chain.sideA with modules := [⟨3, 0, true⟩, ⟨0, 0, false⟩] } } }
    s.minutesBegun = 17 ∧ s.tally.opened.counts.stopped = 1 ∧ s.tally.opened.counts.blindMinutes = 1 ∧
      s.tally.opened.counts.doffStall = 0 := by decide +kernel

theorem test_scanTimerExpiry :
    let s := run1 (.scanTimerExpiry 1000000000 .B) base
    s.chain.flight.map (fun f => f.pass) = some ⟨.B, .sense⟩ ∧ s.chain.sideB.scanDue = some 1000050000 := by
  decide +kernel

theorem test_scanTimerExpiry_late :
    (run1 (.scanTimerExpiry 1000000000 .A) (inFlight ⟨.A, .sense⟩ [])).tally.opened.counts.lateScans = 1 := by
  decide +kernel

theorem test_moduleFrameReceived :
    (run1 (.moduleFrameReceived 1000000000 0b111101101#9) (inFlight ⟨.A, .sense⟩ [])).chain.flight.map
        (fun f => f.frames) =
      some [{ yarn := [true, true, true, true, false, true, true, false], passing := true }] := by decide +kernel

/-- A pass on which spindle 3 reads no yarn for the third time: declared down, the drive pass starts. -/
theorem test_sensePassEnd :
    let s := run1 (.sensePassEnd 1000000000 0b101001101001#12)
      (withRec (inFlight ⟨.A, .sense⟩ [frameBut [3], frameBut [], frameBut []]) 3 { SpindleRec.fresh 0 with run := 2 })
    (s.spindle 3).map (fun r => (r.state, r.run, r.breaks, r.downSince, r.length)) =
        some (.down, 0, 1, 1000, 27540) ∧
      s.table.breakList = [3] ∧ s.tally.opened.sideA.endsDown = 1 ∧
      s.chain.flight.map (fun f => f.pass) = some ⟨.A, .drive⟩ := by decide +kernel

theorem test_sensePassEnd_trailer :
    let s := run1 (.sensePassEnd 1000000000 0b101001101000#12)
      (inFlight ⟨.A, .sense⟩ [frameBut [], frameBut [], frameBut []])
    s.chain.sideA.trailerMissing = 1 ∧ s.chain.sideA.modules = List.replicate 3 ⟨1, 0, false⟩ := by decide +kernel

theorem test_drivePassEnd :
    (run1 (.drivePassEnd 1000000000) { inFlight ⟨.B, .drive⟩ [] with
        chain := { base.chain with flight := some { pass := ⟨.B, .drive⟩, since := 0, frames := [],
                                                    bits := [⟨true, false⟩] } } }).chain.sideB.outputs =
      [⟨true, false⟩] := by decide +kernel

theorem test_sideClearPress :
    let s := run1 (.sideClearPress 1000000000 .B)
      (withRec (withRec base 30 { SpindleRec.fresh 0 with state := .locked, attempts := 3 }) 5
        { SpindleRec.fresh 0 with state := .locked, attempts := 3 })
    (s.spindle 30).map (fun r => (r.state, r.attempts)) = some (.down, 0) ∧
      (s.spindle 5).map (fun r => r.state) = some .locked ∧ s.table.breakList = [30] ∧ s.pins.clearB = true := by
  decide +kernel

theorem test_unlock :
    let s := withRec base 30 { SpindleRec.fresh 0 with state := .locked, attempts := 3 }
    (run1 (.unlock 1000000000 30) s).table.breakList = [30] ∧ (run1 (.unlock 1000000000 0) s).table.breakList = [30] ∧
      run1 (.unlock 1000000000 31) s = s.handed 1000000000 .spindleTable := by decide +kernel

theorem test_frontRollerPulse :
    let s := run1 (.frontRollerPulse 1000000000) { base with drive := { base.drive with remainder := 151518 } }
    s.drive.d = 27541#32 ∧ s.drive.remainder = 0 ∧ s.drive.lastPulse = 1000000000 := by decide +kernel

/-- R204: the high and the low of a pulse are 20 µs each, so the next pulse comes 40 µs after the last one or later. -/
theorem test_frontRollerPulse_spacing :
    let s := { base with drive := { base.drive with lastPulse := 1000000000 } }
    run1 (.frontRollerPulse 1000000039) s = s.later 1000000039 ∧
      (run1 (.frontRollerPulse 1000000040) s).drive.remainder = 8482 := by decide +kernel

/-- The pulse that fills the cop: FULL-STOP, a claim and a FORECAST in one event. -/
theorem test_frontRollerPulse_full :
    let s := run1 (.frontRollerPulse 1000000000)
      { base with drive := { base.drive with remainder := 151518, d := 35999, fill := 999 } }
    s.frame.mode = .fullStop ∧ s.drive.fill = 1000 ∧ s.frame.fullAt = some 1000 ∧
      s.frame.positionDue = some 1090000000 ∧ s.frame.claim.state = .claimed ∧
      s.line.urgent.map (fun n => (n.kind, n.dst)) = [(some .doffClaim, 80)] ∧
      s.line.routine.map (fun n => n.kind) = [some .forecast] := by decide +kernel

theorem test_rollerStopsTurning :
    let s := run1 (.rollerStopsTurning 1000490000) base
    s.drive.turning = false ∧ s.drive.buckets = [] ∧ s.drive.rate = none ∧ s.drive.eligible = false ∧
      (run1 (.rollerStopsTurning 1000489999) base).drive.turning = true := by decide +kernel

theorem test_updateTick :
    let s := run1 (.updateTick 1000000000) base
    s.drive.tickDue = some 1010000000 ∧ s.drive.rate = some 178 ∧ s.drive.speed = 16453 ∧
      s.drive.tickMark = 27540#32 := by decide +kernel

theorem test_pwmPeriodStart :
    let s := run1 (.pwmPeriodStart 1000000000) { base with drive := { base.drive with dutyWaiting := 653 } }
    s.drive.dutyRunning = 653 ∧ s.drive.pwmNext = 1000001000 := by decide +kernel

theorem test_callRepeat :
    let s := run1 (.callRepeat 1005000000 305) (calledT .opened)
    s.pieces.calls.map (fun c => c.repeats) = [1] ∧
      s.line.routine.map (fun n => (n.kind, n.dst, n.reference)) = [(some .call, 255, 305)] := by decide +kernel

theorem test_withdrawnUntaken :
    let s := run1 (.withdrawnUntaken 1065000000 305) (calledT .opened)
    s.pieces.calls = [] ∧ (s.spindle 5).map (fun r => (r.state, r.notBefore, r.call)) =
        some (.down, some 1095, none) ∧
      s.table.breakList = [5] ∧ s.tally.opened.sideA.untaken = 1 := by decide +kernel

theorem test_take :
    let s := run1 (.take 1000000000 62 305 5) (calledT .opened)
    s.pieces.calls.map (fun c => (c.state, c.carriage, c.takenAt)) = [(.taken, some 62, some 1000000)] ∧
      (s.spindle 5).map (fun r => r.state) = some .taken ∧
      s.line.urgent.map (fun n => (n.kind, n.dst, n.reference, n.payload.map (fun b => b.toNat))) =
        [(some .assign, 62, 305, [0, 5, 1, 1, 1, 5, 60])] := by decide +kernel

theorem test_take_elsewhere :
    (run1 (.take 1000000000 62 305 5) (calledT .taken)).line.urgent.map
        (fun n => (n.kind, n.dst, n.payload.map (fun b => b.toNat))) = [(some .close, 62, [0, 5, 7])] := by
  decide +kernel

theorem test_done_success :
    (run1 (.done 1000000000 61 305 5 1 0) (calledT .taken)).pieces.calls.map (fun c => (c.state, c.verifyUntil)) =
      [(.verify, some 1003000)] := by decide +kernel

theorem test_done_fail :
    let s := run1 (.done 1000000000 61 305 5 2 1) (calledT .taken)
    s.pieces.calls = [] ∧ (s.spindle 5).map (fun r => (r.state, r.attempts, r.notBefore)) =
        some (.down, 1, some 1030) ∧
      s.tally.opened.sideA.failed = 1 ∧ (s.roving.recs.map (fun r => r.breaks)) = [[1000], []] := by decide +kernel

theorem test_piecingTimeout :
    let s := run1 (.piecingTimeout 1050000000 305) (calledT .taken)
    s.pieces.calls = [] ∧ s.tally.opened.sideA.lapsed = 1 ∧ s.line.urgent.map (fun n => (n.kind, n.dst)) =
      [(some .close, 61)] := by decide +kernel

theorem test_verifyWindowCloses :
    let s := run1 (.verifyWindowCloses 1000000000 305) (calledT .verify)
    s.pieces.calls = [] ∧ s.tally.opened.sideA.failed = 1 ∧ (s.spindle 5).map (fun r => r.attempts) = some 1 := by
  decide +kernel

theorem test_runPermitRise :
    let s := run1 (.runPermitRise 1000000000) { inMode .halted with pins := Pins.idle }
    s.frame.mode = .running ∧ s.drive.speed = 8500 ∧ s.pins.runPermit = true ∧
      (run1 (.runPermitRise 1000000000) { fullIn .stopped with pins := Pins.idle }).frame.mode = .fullStop := by
  decide +kernel

theorem test_runPermitFall :
    let s := run1 (.runPermitFall 1000000000) (calledT .opened)
    s.frame.mode = .stopped ∧ s.frame.reason = some .operator ∧ s.pieces.calls = [] ∧ s.drive.dutyWaiting = 0 ∧
      (s.spindle 5).map (fun r => r.state) = some .down := by decide +kernel

theorem test_stopButton :
    (run1 (.stopButton 1000000000) base).frame.mode = .stopped ∧
      (run1 (.stopButton 1000000000) (fullIn .doffing)).frame.permitDropped = true := by decide +kernel

theorem test_driveFault :
    (run1 (.driveFault 1000000000) base).frame.reason = some .drive ∧
      (run1 (.driveFault 1000000000) base).faultLamp = true := by decide +kernel

theorem test_atDoffPosition :
    let s := run1 (.atDoffPosition 1000000000) (fullIn .fullStop)
    s.frame.mode = .fullWait ∧ s.doffRequest = false ∧ s.driveEnable = false := by decide +kernel

/-- Ch. 05, Worked doff: 13 minutes of waiting for the doffer; the dropped permit sends the frame to STOPPED. -/
theorem test_doffDoneButton :
    let s := run1 (.doffDoneButton 21425000000) { fullIn .doffing with
      frame := { base.frame with mode := .doffing, fullAt := some 20000, doffStartAt := some 20790,
                                 permitDropped := true, doffingDue := some 21510000000 } }
    s.frame.mode = .stopped ∧ s.frame.reason = some .operator ∧ s.tally.opened.counts.dofferWait = 13 ∧
      s.tally.opened.counts.doffs = 1 ∧ s.drive.fill = 0 ∧ s.drive.copMark = 36000#32 ∧ s.doffLamp = false ∧
      s.frame.permitDropped = false := by decide +kernel

theorem test_restartGrace :
    (run1 (.restartGrace 1000000000)
      { inMode .restart with frame := { base.frame with mode := .restart, graceDue := some 1000000000 } }).frame.mode =
      .running := by decide +kernel

theorem test_positionTimeout :
    let s := run1 (.positionTimeout 1000000000)
      { fullIn .fullStop with frame := { base.frame with mode := .fullStop, positionDue := some 1000000000 } }
    s.frame.mode = .stopped ∧ s.frame.reason = some .position ∧ s.faultLamp = true := by decide +kernel

theorem test_doffingTimeout :
    (run1 (.doffingTimeout 1000000000)
      { fullIn .doffing with frame := { base.frame with mode := .doffing, doffingDue := some 1000000000 } }).frame.mode =
      .doffStall := by decide +kernel

theorem test_doffStart :
    let s := run1 (.doffStart 1000000000 80) (fullIn .fullWait)
    s.frame.mode = .doffing ∧ s.frame.doffStartAt = some 1000 ∧ s.frame.doffingDue = some 1720000000 ∧
      (run1 (.doffStart 1000000000 80) base).line.urgent.map (fun n => (n.kind, n.dst, n.payload)) =
        [(some .doffRefuse, 80, [1#8, 1#8])] := by decide +kernel

theorem test_doffEnd :
    (run1 (.doffEnd 1000000000 80) (fullIn .doffing)).frame.mode = .restart ∧
      (run1 (.doffEnd 1000000000 81) (fullIn .doffing)).frame.mode = .doffing := by decide +kernel

theorem test_doffAbort :
    let s := run1 (.doffAbort 1000000000 80) (fullIn .doffStall)
    s.frame.mode = .fullWait ∧ s.frame.claim.state = .claimed := by decide +kernel

theorem test_doffQueued :
    let s : State := { fullIn .fullWait with frame := { base.frame with mode := .fullWait, claim := Claim.madeAt 0 .none } }
    (run1 (.doffQueued 1000000000 80 2) s).frame.claim.position = some 2 ∧
      (run1 (.doffQueued 1000000000 80 0) s).frame.claim.position = some 15 := by decide +kernel

theorem test_doffGrant :
    let s : State := { fullIn .fullWait with frame := { base.frame with mode := .fullWait, claim := Claim.madeAt 0 .none } }
    (run1 (.doffGrant 1000000000 80 3) s).frame.claim.state = .granted ∧
      (run1 (.doffGrant 1000000000 80 3) s).frame.claim.eta = some 3 := by decide +kernel

theorem test_forecastInterval :
    let s := run1 (.forecastInterval 1000000000) base
    s.frame.forecastDue = some 1120000000 ∧ s.line.routine.map (fun n => n.payload.map (fun b => b.toNat)) =
      [[17, 4, 1, 0, 48, 2, 253]] := by decide +kernel

theorem test_claimAnswerWait :
    let s (k : Nat) : State := { base with
      frame := { base.frame with claim := { Claim.madeAt 0 .none with retries := k } } }
    (run1 (.claimAnswerWait 1000000000) (s 4)).frame.claim.retries = 5 ∧
      (run1 (.claimAnswerWait 1000000000) (s 5)).frame.claim.pause = some 1060000 ∧
      (run1 (.claimAnswerWait 1000000000) (s 5)).tally.opened.counts.dofferSilent = 1 := by decide +kernel

theorem test_claimPause :
    (run1 (.claimPause 1000000000) { fullIn .fullWait with
        frame := { base.frame with mode := .fullWait, claim := { Claim.idle with pause := some 1000000 } } }
      ).frame.claim = Claim.madeAt 1000000000 .none := by decide +kernel

theorem test_batchTimer :
    let s := run1 (.batchTimer 1000000000) { supplyT (fun r => { r with state := .due, time := some 59 }) with
      roving := { (supplyT (fun r => { r with state := .due, time := some 59 })).roving with
        batchDue := some 1000000 } }
    s.roving.askSeq = 2 ∧ s.roving.batchDue = none ∧
      s.roving.recs.map (fun r => (r.state, r.asks, r.retryAt)) =
        [(.asked, 1, some 1030000), (.none, 0, none)] ∧
      s.line.urgent.map (fun n => n.payload.map (fun b => b.toNat)) = [[17, 128, 0, 0, 0, 0, 0, 0, 59]] := by
  decide +kernel

theorem test_rovingAnswerWait :
    let s (k : Nat) := supplyT (fun r => { r with state := .asked, asks := k, retryAt := some 1000000 })
    ((run1 (.rovingAnswerWait 1000000000) (s 4)).supply 1).map (fun r => (r.state, r.asks, r.retryAt)) =
        some (.asked, 5, some 1030000) ∧
      ((run1 (.rovingAnswerWait 1000000000) (s 5)).supply 1).map (fun r => r.state) = some .due ∧
      (run1 (.rovingAnswerWait 1000000000) (s 5)).tally.opened.counts.railSilent = 1 := by decide +kernel

theorem test_rovingAck :
    ((run1 (.rovingAck 1000000000 90 20 [1]) (supplyT (fun r => { r with state := .asked, asks := 1 }))).supply 1).map
        (fun r => (r.state, r.asks, r.eta)) = some (.acked, 0, some ⟨20, 1000000⟩) := by decide +kernel

theorem test_etaExpiry :
    let s := run1 (.etaExpiry 1860000000) (supplyT (fun r => { r with state := .acked, eta := some ⟨20, 60000⟩ }))
    (s.supply 1).map (fun r => (r.state, r.eta)) = some (.due, none) ∧ s.roving.batchDue = some 1905000 := by
  decide +kernel

theorem test_rovingDefer :
    ((run1 (.rovingDefer 1000000000 90 30 [1]) (supplyT (fun r => { r with state := .asked, asks := 1 }))).supply 1
      ).map (fun r => (r.state, r.retryAt)) = some (.deferred, some 2800000) := by decide +kernel

theorem test_deferralEnd :
    ((run1 (.deferralEnd 1000000000) (supplyT (fun r => { r with state := .deferred, retryAt := some 1000000 }))
      ).supply 1).map (fun r => (r.state, r.retryAt)) = some (.due, none) := by decide +kernel

theorem test_rovingLaid :
    let s := run1 (.rovingLaid 1000000000 90 1 250)
      (withRec (supplyT (fun r => { r with state := .runOut })) 5 { SpindleRec.fresh 0 with state := .runOut })
    (s.supply 1).map (fun r => (r.state, r.laidLength, r.laidMark)) = some (.none, 2500, 27540#32) ∧
      (s.spindle 5).map (fun r => (r.state, r.notBefore)) = some (.down, some 1005) := by decide +kernel

theorem test_shiftChange :
    let s := run1 (.shiftChange 1000000000 230 1 2 77) base
    s.tally.opened.number = 2 ∧ s.tally.opened.stamp = some 77 ∧ s.tally.opened.dOpen = 27540#32 ∧
      s.tally.ring.map (fun c => (c.shift.number, c.closedAt)) = [(1, 16)] ∧
      s.tally.ring.map (fun c => (c.valuesA.delivered, c.valuesA.efficiency)) = [(660960, 1000)] ∧
      s.line.routine.map (fun n => (n.kind, n.dst, n.reference)) =
        [(some .tally, 230, 1), (some .tally, 230, 1), (some .tally, 230, 1)] := by decide +kernel

theorem test_tallyQuery :
    ((run1 (.tallyQuery 1000000000 230 0) base).line.routine.map (fun n => n.payload.length)) = [29, 20, 20] ∧
      ((run1 (.tallyQuery 1000000000 230 9) base).line.routine.map (fun n => (n.kind, n.reference))) =
        [(some .tallyNone, 9)] := by decide +kernel

theorem test_blockBusyEnds :
    let s := run1 (.blockBusyEnds 1000000001 .frameDoff) { fullIn .fullWait with line := { base.line with
      inbound := [fromT 80 .doffStart 0 []], busy := { base.line.busy with frameDoff := some 1000000000 } } }
    s.frame.mode = .doffing ∧ s.line.inbound = [] ∧ s.line.busy.frameDoff = some 1000000001 := by decide +kernel

theorem test_receiveFrameEnd :
    let s := run1 (.receiveFrameEnd 1000000000 (fromT 61 .take 305 [0#8, 5#8]).bytes)
      { calledT .opened with line := { base.line with receiving := true } }
    s.pieces.calls.map (fun c => (c.state, c.carriage)) = [(.taken, some 61)] ∧
      s.line.busy.dispatcher = some 1000000000 ∧ s.line.receiving = false := by decide +kernel

theorem test_receiveFrameEnd_errors :
    let s : State := { base with line := { base.line with receiving := true } }
    (run1 (.receiveFrameEnd 1000000000 [1#8, 2#8]) s).tally.opened.counts.receiveErrors = 1 ∧
      (run1 (.receiveFrameEnd 1000000000 ({ fromT 17 .hold 0 [1#8] with dst := 255 }).bytes) s).line.clash = 1 := by
  decide +kernel

/-- R166: 12 bit times of 2 µs after the start mark the line is idle and the frame ends, a microsecond earlier it has not
ended, and while the part transmits it does not. -/
theorem test_receiveFrameEnd_idle :
    let m := run1 (.startMark 1000000000 8) base
    let b := (fromT 61 .hold 0 [255#8]).bytes
    run1 (.receiveFrameEnd 1000000023 b) m = m.later 1000000023 ∧
      (run1 (.receiveFrameEnd 1000000024 b) m).line.receiving = false ∧
      (run1 (.receiveFrameEnd 1000000024 b) m).line.lastTransition = 1000000000 ∧
      ((run1 (.receiveFrameEnd 1000000024 b) m).peer 61).map (fun p => p.holdUntil) = some (some 1001020) ∧
      (let s : State := { m with line := { m.line with
          flight := some ⟨base.notice .close 61 1 [], 1, .sending 999999900⟩ } };
        run1 (.receiveFrameEnd 1000000024 b) s = s.later 1000000024) := by decide +kernel

theorem test_hold :
    ((run1 (.hold 1000000000 61 255) base).peer 61).map (fun p => p.holdUntil) = some (some 1001020) ∧
      ((run1 (.hold 1000000000 61 0) base).peer 61).map (fun p => p.holdUntil) = some none := by decide +kernel

theorem test_hello :
    let s := run1 (.hello 1000000000 80 3 0 true) base
    (s.peer 80).map (fun p => p.kind) = some .doffer ∧ s.line.urgent.map (fun n => (n.kind, n.fresh)) =
      [(some .hello, false)] := by decide +kernel

theorem test_patrol :
    ((run1 (.patrol 1000000000 64 [17, 18, 0, 17, 19]) base).peer 64).map (fun p => (p.kind, p.patrol)) =
      some (.piecer, [17, 18, 19]) := by decide +kernel

theorem test_forecast :
    ((run1 (.forecast 1000000000 21 4 1 40 700) base).peer 21).map (fun p => (p.kind, p.group, p.forecast)) =
      some (.frame, some 4, some ⟨40, 1000000, .running⟩) := by decide +kernel

theorem test_ownHoldExpiry :
    let s := run1 (.ownHoldExpiry 1000000000) { base with line := { base.line with ownHold := some 1000000 } }
    s.line.ownHold = some 1001020 ∧ s.line.urgent.map (fun n => (n.kind, n.payload)) = [(some .hold, [255#8])] := by
  decide +kernel

theorem test_peerHoldExpiry :
    ((run1 (.peerHoldExpiry 1000000000 61) { base with line := { base.line with
      peers := [{ carriage 61 999000 with holdUntil := some 1000000 }] } }).peer 61).map (fun p => p.holdUntil) =
      some none := by decide +kernel

/-- The urgent notice goes first; a notice to a station that holds is passed over. -/
theorem test_firstAttempt :
    let s : State := { base with line := { base.line with
      urgent := [base.notice .close 61 1 [], base.notice .close 62 2 []]
      peers := [{ carriage 61 999000 with holdUntil := some 2000000 }, carriage 62 999000] } }
    ((run1 (.firstAttempt 1000000000) s).line.flight.map (fun f => (f.notice.reference, f.attempts, f.phase))) =
        some (2, 1, .sending 1000000000) ∧
      (run1 (.firstAttempt 1000000000) s).line.urgent = [base.notice .close 61 1 []] := by decide +kernel

theorem test_collision :
    let s := run1 (.collision 1000000000) { base with line := { base.line with
      flight := some ⟨base.notice .close 61 1 [], 1, .sending 999999900⟩ } }
    s.line.flight.map (fun f => f.phase) = some (.jamming 1000000064) ∧ s.line.pacing = 31 ∧
      s.tally.opened.counts.collisions = 1 := by decide +kernel

theorem test_jamEnd :
    let s (k : Nat) := run1 (.jamEnd 1000000064) { base with line := { base.line with
      flight := some ⟨base.notice .close 61 1 [], k, .jamming 1000000064⟩ } }
    (s 1).line.flight.isSome = true ∧ (s 1).line.lfsr ≠ base.line.lfsr ∧ (s 16).line.flight = none ∧
      (s 16).tally.opened.counts.sendFailures = 1 := by decide +kernel

theorem test_retryAttempt :
    (run1 (.retryAttempt 1000000000) { base with line := { base.line with
      flight := some ⟨base.notice .close 61 1 [], 1, .backingOff 999990000⟩ } }).line.flight.map
        (fun f => (f.attempts, f.phase)) = some (2, .sending 1000000000) := by decide +kernel

theorem test_noticeSent :
    let s := run1 (.noticeSent 1000000000) { base with line := { base.line with
      pacing := 31, flight := some ⟨base.notice .tallyNone 230 408 [], 1, .sending 999999824⟩ } }
    s.line.flight = none ∧ s.line.pacing = 30 ∧ s.line.lastTransition = 1000000000 := by decide +kernel

theorem test_isolationTimeout :
    (run1 (.isolationTimeout 1059000000) base).line.isolated = true ∧
      (run1 (.isolationTimeout 1058999999) base).line.isolated = false := by decide +kernel

theorem test_supplyLost : (run1 .supplyLost base).start.phase = .off ∧ (run1 .supplyLost base).drive.d = 0#32 := by
  decide +kernel

theorem test_inputs_fall_back :
    let s : State := { base with pins := ⟨false, true, true, true, true, true, true, true, PinChanges.none⟩ }
    (run1 (.driveFaultClears 1000000000) s).pins.driveFault = false ∧
      (run1 (.atDoffPositionClears 1000000000) s).pins.atDoff = false ∧
      [Button.stop, .doffDone, .clearA, .clearB].map (fun b =>
          let p := (run1 (.buttonRelease 1000000000 b) s).pins
          (p.stop, p.doffDone, p.clearA, p.clearB)) =
        [(false, true, true, true), (true, false, true, true), (true, true, false, true), (true, true, true, false)] ∧
      (run1 (.buttonRelease 1000000000 .stop) s).pins.changes.stop = some 1000000000 := by decide +kernel

/-- R204: a fall 9,999 µs after the rise was taken is filtered out, at 10 ms it is taken; each input has its own filter. -/
theorem test_input_filter :
    let s := run1 (.runPermitRise 1000000000) { inMode .halted with pins := Pins.idle }
    (run1 (.runPermitFall 1000009999) s).frame.mode = .running ∧ (run1 (.runPermitFall 1000010000) s).frame.mode = .stopped ∧
      (run1 (.stopButton 1000000001) s).frame.mode = .stopped := by decide +kernel

/-- R178: a block that works on a notice is handed none, nor is one for which an earlier notice waits; below 1 ms, and the
tally unit after 30 ms, a block has finished. -/
theorem test_busy_blocks :
    let s := run1 (.unlock 1000000000 31) (withRec base 30 { SpindleRec.fresh 0 with state := .locked, attempts := 3 })
    let q := run1 (.tallyQuery 1000000000 230 9) base
    (run1 (.unlock 1000000999 30) s).table.breakList = [] ∧ (run1 (.unlock 1000001000 30) s).table.breakList = [30] ∧
      (run1 (.tallyQuery 1000030000 231 9) q).line.routine.length = 1 ∧
      (run1 (.tallyQuery 1000030001 231 9) q).line.routine.length = 2 ∧
      (run1 (.unlock 1000001000 30)
        { s with line := { s.line with inbound := [fromT 230 .tallyQuery 0 []] } }).table.breakList = [] := by decide +kernel

/-- R1, R3, R4, R21: the load pulse at the start of a sense pass, the clock while its 39 bits last, the latch pulse at the
end of a drive pass with data shifted last module first, lamp before clamp; every output low outside the active part. -/
theorem test_chain_outputs :
    let s := run1 (.scanTimerExpiry 1000000000 .A) base
    let f : PassFlight := { pass := ⟨.B, .drive⟩, since := 1000000000, frames := [],
                            bits := List.replicate 23 ⟨false, false⟩ ++ [⟨true, false⟩] }
    let d : State := { base with chain := { base.chain with flight := some f } }
    s.chainPins .A = ⟨true, true, false, false⟩ ∧ s.chainPins .B = ChainPins.low ∧
      (s.later 1000000038).chainPins .A = ⟨true, false, false, false⟩ ∧ (s.later 1000000039).chainPins .A = ChainPins.low ∧
      d.chainPins .B = ⟨true, false, false, true⟩ ∧ (d.later 1000000001).chainPins .B = ⟨true, false, false, false⟩ ∧
      (run1 (.drivePassEnd 1000000048) d).chainPins .B = ⟨false, false, true, false⟩ ∧
      ({ s with start := { s.start with phase := .configFault } } : State).chainPins .A = ChainPins.low := by
  decide +kernel

/-- R191: the configuration port is driven for 10.56 ms. -/
theorem test_config_outputs :
    let s := run1 (.powerOn 17) base
    (s.configPins.selected, s.configPins.clocking) = (true, true) ∧ (s.later 10559).configPins.selected = true ∧
      (s.later 10560).configPins = ⟨false, false, false⟩ := by decide +kernel

/-- R165, R166: the preamble begins with a 1, high then low, and a 0, low then high. -/
theorem test_line_level :
    let s : State := { base with line := { base.line with
      flight := some ⟨base.notice .close 61 1 [], 1, .sending 1000000000⟩ } }
    [1000000000, 1000000001, 1000000002, 1000000003].map (fun t => (s.later t).lineLevel) =
        [some true, some false, some false, some true] ∧
      base.lineLevel = none := by decide +kernel

/-- R171: a collision after the last check bit is none. -/
theorem test_collision_late :
    let s : State := { base with line := { base.line with
      flight := some ⟨base.notice .tallyNone 230 408 [], 1, .sending 999999823⟩ } }
    (run1 (.collision 999999999)
          { s with clock := 0 }).line.flight.map (fun f => f.phase) =
        some (.jamming 1000000063) ∧
      (run1 (.collision 1000000000) s).line.flight.map (fun f => f.phase) = some (.sending 999999823) := by
  decide +kernel

/-- R159: a side that had no sections when its values were formed is answered with 0 in every place. -/
theorem test_side_without_sections :
    let c : SideCounts := { (⟨7, 0, 0, 0, 0, 0, 0, 0⟩ : SideCounts) with pieced := 9 }
    sidePart 3 c ⟨false, 0, 0, 0, [], 0⟩ = 192#8 :: List.replicate 19 0#8 ∧
      (sidePart 3 c ⟨true, 0, 0, 0, [], 0⟩).map (fun b => b.toNat) =
        [192, 0, 0, 0, 0, 0, 0, 0, 0, 0, 0, 7, 0, 0, 9, 0, 0, 0, 0, 0] := by decide +kernel

theorem test_startMark :
    (run1 (.startMark 1000000000 8) base).line.receiving = true ∧
      (run1 (.startMark 1000000000 7) base).line.receiving = false ∧
      (run1 (.startMark 1000000000 7) base).line.lastTransition = 1000000000 := by decide +kernel

/-! ## A state and operands for every statement with hypotheses

Each theorem `witness_<Name>` meets the hypotheses of `Obligations.<Name>`, clause by clause; `∀ x, x = e →` in a
statement only names `e`. -/

theorem base_underWay : base.underWay := Or.inr rfl

/-- A state with the line unit of `base`: nothing waits and no block is busy. -/
theorem canHand_of_line (s : State) (h : s.line = base.line) (t : Nat) (block : Block) : s.canHand t block := by
  unfold State.canHand
  rw [h]
  exact ⟨rfl, fun _ hu => by cases block <;> cases hu⟩

/-- An input that stands at the other level, with no change taken since the filter began. -/
theorem mayChange_of_pins (s : State) (t : Nat) (i : Input) (level : Bool) (h : s.pins.changes = PinChanges.none)
    (hl : s.pins.level i = !level) : s.mayChange t i level := by
  unfold State.mayChange
  rw [h, hl]
  exact ⟨by cases level <;> decide, fun _ hu => by cases i <;> cases hu⟩

/-- Its last change is not yet 10 ms old. -/
theorem not_mayChange_of_pins (s : State) (t u : Nat) (i : Input) (level : Bool) (h : s.pins.changes.of i = some u)
    (hl : max s.clock t < u + 10000) : ¬s.mayChange t i level :=
  fun hc => Nat.not_le_of_lt hl (hc.2 u h)

/-- `base` with each input at the low level and taken at 999,990,001 µs, one microsecond too late for a change now. -/
def filtering : State :=
  { base with pins :=
      let m := some 999990001
      { Pins.idle with changes := ⟨m, m, m, m, m, m, m⟩ } }

theorem filtering_mayNotChange (i : Input) : ¬filtering.mayChange 0 i true :=
  not_mayChange_of_pins _ _ 999990001 _ _ (by cases i <;> rfl) (by decide +kernel)

/-- One microsecond later the change is taken. -/
theorem filtering_mayChange (i : Input) : filtering.mayChange 1000000001 i true :=
  ⟨by cases i <;> decide, fun u hu => by
    have : u = 999990001 := by cases i <;> exact (Option.some.inj hu).symm
    subst this
    decide +kernel⟩

/-- The bounds of a block's work: below 1 ms, and for the tally unit at most 30 ms (R178). -/
theorem witness_mayBeBusy :
    (mayBeBusy .dispatcher 5 1004 ∧ ¬mayBeBusy .dispatcher 5 1005) ∧ mayBeBusy .tally 5 30005 ∧ ¬mayBeBusy .tally 5 30006 := by
  unfold mayBeBusy
  decide +kernel

theorem witness_StepRunsFrontCommand : base.pending = [] := rfl

/-- The reset pin released and asserted as the supply comes. -/
theorem witness_PowerOnAndSupplyLossGiveColdValues :
    base.pins.reset = false ∧ (run1 (.resetAssert 0) base).pins.reset = true := by decide +kernel

theorem witness_ResetKeepsRetainedMemory :
    (base.start.phase ≠ .off ∧ base.start.phase ≠ .inReset) ∧ (inPhase .inReset).start.phase = .inReset ∧
      (inPhase .off).start.phase = .off ∧ base.start.phase ≠ .inReset := by decide +kernel

theorem witness_ConfigurationFaultHoldsEveryBlock :
    (inPhase .configFault).start.phase = .configFault ∧ (∀ strap, Instr.frameMinute 0 ≠ .powerOn strap) ∧
      Instr.frameMinute 0 ≠ .supplyLost ∧ ∀ t, Instr.frameMinute 0 ≠ .resetAssert t :=
  ⟨rfl, ⟨nofun, nofun, nofun⟩⟩

/-- A start in the configuration read, at part time 0, with a cop of some delivery. -/
def reading (d : DCount) : State :=
  { inPhase .reading with clock := 0, drive := { base.drive with d := d } }

/-- The read ends exactly 10.56 ms later; a cop at 765 ‰ and a full one; a remainder kept and one lost. -/
theorem witness_GoodConfigurationBeginsListening :
    ((reading 27540).start.phase = .reading ∧
        (reading 27540).start.phaseStart + 10560 ≤ max (reading 27540).clock 10560 ∧
        configurationGood (reading 27540).start.strap (imageOf imageT) = true) ∧
      (min 1000 (1000 * ((reading 27540).drive.d - (reading 27540).drive.copMark).toNat / (10 * cfgT.copLength)) ≠
          1000 ∧
        min 1000 (1000 * ((reading 36000).drive.d - (reading 36000).drive.copMark).toNat / (10 * cfgT.copLength)) =
          1000) ∧
      (run1 (.configurationReadEnd 10560 imageT) { reading 0 with drive := { base.drive with remainder := 159999 } }
        ).drive.remainder = 159999 ∧
      (run1 (.configurationReadEnd 10560 imageT) { reading 0 with drive := { base.drive with remainder := 160000 } }
        ).drive.remainder = 0 := by decide +kernel

/-- With the section counts kept: a record in LOCKED, one HELD from LOCKED, one at the attempts limit, one UP; and a
start whose side B count differs. -/
theorem witness_StartSetsSpindleRecords :
    (let s := withRec (withRec (withRec (reading 27540) 1 { SpindleRec.fresh 0 with state := .locked }) 2
        { SpindleRec.fresh 0 with state := .held, heldFrom := some .locked, heldMark := some 5 }) 3
        { SpindleRec.fresh 0 with attempts := 3 };
      s.start.phase = .reading ∧ s.start.phaseStart + 10560 ≤ max s.clock 10560 ∧
        configurationGood s.start.strap (imageOf imageT) = true ∧
        s.start.keptA = (settingsOf (imageOf imageT)).sectionsA ∧
        s.start.keptB = (settingsOf (imageOf imageT)).sectionsB ∧
        (s.spindle 1).map (fun r => r.state) = some .locked ∧
        (s.spindle 2).map (fun r => (r.state, r.heldFrom)) = some (.held, some .locked) ∧
        (s.spindle 3).map (fun r => decide (3 ≤ r.attempts)) = some true ∧
        (s.spindle 4).map (fun r => r.state) = some .up) ∧
      ¬((reading 0).start.keptA = (settingsOf (imageOf imageT)).sectionsA ∧
        { (reading 0).start with keptB := 2 }.keptB = (settingsOf (imageOf imageT)).sectionsB) := by decide +kernel

/-- Sections that stand NONE, ACKED, RUN-OUT with roving left and RUN-OUT with none left. -/
theorem witness_StartSetsSupplyRecords :
    let r (creel : Nat) (st : SupplyState) (mark : DCount) : SupplyRec :=
      { SupplyRec.fresh creel mark 18000 with state := st }
    let s := { reading 700000 with roving := { base.roving with
      recs := [r 1 .none 0, r 2 .acked 0, r 3 .runOut 699000, r 4 .runOut 0] } }
    (s.start.phase = .reading ∧ s.start.phaseStart + 10560 ≤ max s.clock 10560 ∧
        configurationGood s.start.strap (imageOf imageT) = true) ∧
      (s.start.keptA = (settingsOf (imageOf imageT)).sectionsA ∧
        s.start.keptB = (settingsOf (imageOf imageT)).sectionsB) ∧
      s.roving.recs.map (fun q => (q.state, decide (q.laidLength - (s.drive.d - q.laidMark).toNat * 100 / 3850 = 0))) =
        [(.none, true), (.acked, true), (.runOut, false), (.runOut, true)] := by decide +kernel

theorem witness_FaultyConfigurationStopsTheStart :
    imageT.length = 128 ∧ (reading 0).start.phase = .reading ∧
      (reading 0).start.phaseStart + 10560 ≤ max (reading 0).clock 10560 ∧
      configurationGood (reading 0).start.strap (imageOf (imageT.set 0 2#8)) = false := by decide +kernel

/-- Values below, at and above the ends of a range, and the all-ones code. -/
theorem witness_TuningFieldsAreClamped :
    20 ≤ 250 ∧ clamp 255 20 250 (some 50) 255 = 50 ∧ clamp 255 20 250 (some 50) 19 = 20 ∧
      clamp 255 20 250 (some 50) 20 = 20 ∧ clamp 255 20 250 (some 50) 250 = 250 ∧
      clamp 255 20 250 (some 50) 254 = 250 ∧ clamp 255 1 64 none 255 = 64 ∧ settingsOf imageT = cfgT := by
  decide +kernel

theorem witness_BecomingActiveBeginsScanning :
    let s := { inPhase .listening with clock := 0 }
    s.start.phase = .listening ∧ s.start.phaseStart + 2000000 ≤ max s.clock 2000000 ∧ s.line.urgent = [] ∧
      s.line.routine = [] ∧ s.cfg.batchDelay ≠ 0 ∧ s.roving.batchDue = none ∧ s.cfg.sectionsA ≠ 0 := by decide +kernel

/-- A section kept in RUN-OUT beside one that is not, and none. -/
theorem witness_BecomingActiveBeginsScanning_asks :
    let s : State := { supplyT (fun r => { r with state := .runOut }) with start := (inPhase .listening).start }
    (s.line.urgent = [] ∧ s.roving.recs.length ≤ 48 ∧
        s.roving.recs.map (fun r => (r.state, decide (1 ≤ r.creel ∧ r.creel ≤ 48))) =
          [(.runOut, true), (.none, true)] ∧
        (s.roving.recs.map (fun r => r.creel)).Nodup) ∧
      (∀ r ∈ base.roving.recs, r.state ≠ .runOut) ∧
      (run1 (.becomingActive 1000000000) s).line.urgent.map (fun n => n.kind) =
        [some .hello, some .rovingAsk] := by decide +kernel

theorem witness_FrameMinuteRaisesCounts :
    base.underWay ∧ base.minutesBegun < max base.clock 1020000000 / 60000000 :=
  ⟨base_underWay, by decide +kernel⟩

/-- A timer that joins with the engine idle, one that joins behind a pass in flight, one that is merged, and the first
and the last module frame of a pass. -/
theorem witness_ScanExpiriesAndModuleFrames :
    (base.start.phase = .active ∧ (base.chain.side .A).scanDue = some 1000000000 ∧ 1000000000 ≤ max base.clock 0) ∧
      (⟨.A, .sense⟩ ∉ base.chain.queue ∧ base.chain.flight = none ∧ base.chain.queue = []) ∧
      ((inFlight ⟨.B, .sense⟩ []).chain.flight.map (fun f => decide (f.pass = ⟨.A, .sense⟩)) = some false) ∧
      ((inFlight ⟨.A, .sense⟩ []).chain.flight.map (fun f => decide (f.pass = ⟨.A, .sense⟩)) = some true) ∧
      ∀ frames ∈ [[], [frameBut [], frameBut []]],
        (inFlight ⟨.A, .sense⟩ frames).chain.flight =
            some { pass := ⟨.A, .sense⟩, since := 0, frames := frames, bits := [] } ∧
          frames.length < (inFlight ⟨.A, .sense⟩ frames).modulesOf .A ∧
          0 + 9 * (frames.length + 1) * (inFlight ⟨.A, .sense⟩ frames).chainPeriod ≤ max base.clock 0 := by
  decide +kernel

/-- The engine's choice: the other side's earliest, else the earliest of the side served last, else none. -/
theorem witness_ScanExpiriesAndModuleFrames_choice :
    choosePass [⟨.A, .drive⟩, ⟨.B, .sense⟩, ⟨.B, .drive⟩] .A = some ⟨.B, .sense⟩ ∧
      choosePass [⟨.A, .drive⟩, ⟨.A, .sense⟩] .A = some ⟨.A, .drive⟩ ∧ choosePass [] .A = none ∧
      (run1 (.scanTimerExpiry 0 .A) base).chain.sideA.loadedAt = some 1000000000 := by decide +kernel

/-- A pass of which one frame fails, on modules good, one short of blind and blind. -/
def judged : State :=
  { inFlight ⟨.A, .sense⟩ [frameBut [], { frameBut [] with passing := false }, frameBut []] with
    chain := { (inFlight ⟨.A, .sense⟩ [frameBut [], { frameBut [] with passing := false }, frameBut []]).chain with
      sideA := { base.chain.sideA with modules := [⟨0, 0, false⟩, ⟨2, 0, false⟩, ⟨3, 7, true⟩] } } }

theorem witness_SensePassJudgesModules :
    judged.start.phase = .active ∧
      judged.chain.flight.map (fun f => (f.pass, decide (f.frames.length = judged.modulesOf .A))) =
        some (⟨.A, .sense⟩, true) ∧
      (judged.chain.side .A).modules.length = judged.modulesOf .A ∧
      0 + (9 * judged.modulesOf .A + 12) * judged.chainPeriod ≤ max judged.clock 0 ∧
      (run1 (.sensePassEnd 0 0b101001101001#12) judged).chain.sideA.modules =
        [⟨0, 0, false⟩, ⟨3, 0, true⟩, ⟨0, 0, false⟩] := by decide +kernel

/-- The last readings of that pass: kept for the bad module, taken for the good ones; side B's waiting sense pass goes
first, side A's drive pass waits. -/
theorem witness_SensePassJudgesModules_readings :
    let s := { judged with chain := { judged.chain with
      readings := List.replicate 48 false, queue := [⟨.B, .sense⟩], lastServed := .A } }
    let s' := run1 (.sensePassEnd 0 0b101001101001#12) s
    s.sideBase .A + 8 * 2 + 7 < s.chain.readings.length ∧
      s'.chain.readings = List.replicate 8 true ++ List.replicate 8 false ++ List.replicate 8 true ++
        List.replicate 24 false ∧
      s'.chain.flight.map (fun f => (f.pass, f.since)) = some (⟨.B, .sense⟩, 1000000000) ∧
      s'.chain.queue = [⟨.A, .drive⟩] ∧ s'.chain.sideB.loadedAt = some 1000000000 := by decide +kernel

theorem witness_DebounceFollowsDetectAndTable :
    (let s := { inFlight ⟨.A, .sense⟩ [frameBut [3], frameBut [], frameBut []] with
        frame := { base.frame with mode := .stopped } };
      s.start.phase = .active ∧ s.chain.flight.map (fun f => decide (f.frames.length = s.modulesOf f.pass.side)) =
          some true ∧
        0 + (9 * s.modulesOf .A + 12) * s.chainPeriod ≤ max s.clock 0 ∧ (s.later 0).detects = false ∧
        (∀ frame ∈ [frameBut [3], frameBut [], frameBut []], frame.passing = true) ∧
        (∀ m ∈ (s.chain.side .A).modules, m.blind = false) ∧
        s.table.recs.length = s.spindlesA + s.spindlesB) ∧
      (∀ run ∈ [0, 1], { SpindleRec.fresh 0 with run := run }.run + 1 < cfgT.kDown) ∧
      cfgT.kDown ≤ { SpindleRec.fresh 0 with run := 2 }.run + 1 ∧
      { SpindleRec.fresh 0 with state := .locked }.run + 1 < cfgT.kUp ∧
      cfgT.kUp ≤ { SpindleRec.fresh 0 with state := .taken, run := 1 }.run + 1 := by decide +kernel

/-- The detect condition holding; a module going blind with a live call and without; one recovering, with spindles
HELD from LOCKED, from UP with yarn and without, and from DOWN. -/
theorem witness_DebounceFollowsDetectAndTable_modules :
    base.detects = true ∧ 900000 + 1000 * base.cfg.detectDelay ≤ base.clock / 1000 ∧
      (let s := calledT .taken;
        (s.spindle 5).map (fun r => (r.state, r.call.bind s.liveCall)) = some (.taken, some (callT .taken)) ∧
          5 ∈ s.spindlesIn .A 1 ∧ (s.blindModule .A 1).pieces.calls = [] ∧
          ((s.blindModule .A 1).spindle 5).map (fun r => (r.state, r.heldFrom, r.heldMark)) =
            some (.held, some .down, some 27540#32) ∧
          (s.blindModule .A 1).table.breakList = [] ∧
          (s.blindModule .A 1).line.urgent.map (fun n => n.payload.map (fun b => b.toNat)) = [[0, 5, 5]]) ∧
      (let held (from_ : SpindleState) : SpindleRec :=
          { SpindleRec.fresh 0 with state := .held, heldFrom := some from_, heldMark := some 27000 };
        let s := withRec (withRec (withRec (withRec base 1 (held .locked)) 2 (held .up)) 3 (held .up)) 4 (held .down);
        let s' := s.recoverModule .A 1 [true, true, false, true, true, true, true, true];
        [1, 2, 3, 4].map (fun n => (s'.spindle n).map (fun r => r.state)) =
            [some .locked, some .up, some .down, some .down] ∧
          s'.table.breakList = [3, 4] ∧ s'.heldSum .A = 4 * 540) ∧
      judged.chain.sideA.modules.map (fun m => (m.blind, decide (3 ≤ m.suspect + 1), decide (8 ≤ m.recovery + 1))) =
        [(false, false, false), (false, true, false), (true, true, true)] := by decide +kernel

/-- A section with five breaks in two minutes and a tenth of its roving left, whose sixth makes it run out. -/
theorem witness_DeclaredDownEntersTheBreakList_cluster :
    let q : SupplyRec := { SupplyRec.fresh 1 0 18000 with remaining := 1800, breaks := [880, 900, 910, 920, 930] }
    let s : State := { calledT .opened with roving := { base.roving with recs := [q, SupplyRec.fresh 25 0 18000] } }
    (q ∈ s.roving.recs ∧ (s.roving.recs.map (fun r => r.creel)).Nodup ∧ q.breaks.length ≤ 12 ∧ q.state ≠ .runOut ∧
        s.cfg.clusterCount ≤ (q.breaks ++ [1000]).countP (fun b => decide (1000 ≤ b + 120)) ∧
        q.remaining ≤ q.laidLength / 10) ∧
      (s.pieces.calls.map (fun c => c.number)).Nodup ∧
      ((s.recordBreak 1).supply 1).map (fun r => (r.state, r.time, r.asks)) = some (.runOut, some 0, 1) ∧
      ((s.recordBreak 1).spindle 5).map (fun r => (r.state, r.call)) = some (.runOut, none) ∧
      (s.recordBreak 1).line.urgent.map (fun n => n.kind) = [some .rovingAsk] ∧
      (s.recordBreak 1).line.routine.map (fun n => n.kind) = [some .cancel] ∧
      (s.recordBreak 25).roving.recs.map (fun r => r.breaks) = [q.breaks, [1000]] ∧
      (∀ r ∈ s.roving.recs, r.creel ≠ 2) := by decide +kernel

theorem witness_DeclaredDownEntersTheBreakList :
    (base.spindle 1).map (fun r => r.state) = some .up ∧ (base.spindle 48).map (fun r => r.state) = some .up ∧
      ((calledT .opened).spindle 5).map (fun r => r.state) = some .called := by decide +kernel

/-- An end that stands UP, one in CALLED and one in TAKEN with its call, and one in LOCKED. -/
theorem witness_DeclaredUpMendsTheEnd :
    (base.spindle 1).map (fun r => r.state) = some .up ∧
      ((withRec base 48 { SpindleRec.fresh 0 with state := .locked }).spindle 48).map (fun r => r.state) =
        some .locked ∧
      (∀ st ∈ [CallState.opened, .taken, .verify],
        ((calledT st).spindle 5).map (fun r => (r.state, r.call)) =
            some (if st = .opened then .called else .taken, some 305) ∧
          (calledT st).liveCall 305 = some (callT st)) := by decide +kernel

theorem witness_DrivePassSetsLampsAndClamps :
    let s := inFlight ⟨.B, .drive⟩ []
    s.start.phase = .active ∧ s.chain.flight = some { pass := ⟨.B, .drive⟩, since := 0, frames := [], bits := [] } ∧
      0 + 16 * s.modulesOf .B * s.chainPeriod ≤ max s.clock 0 ∧ s.chain.queue = [] := by decide +kernel

/-- A locked spindle, one HELD from LOCKED and one of another state; a button released and one held. -/
theorem witness_ClearingSendsLockedSpindlesDown :
    let s := withRec (withRec base 30 { SpindleRec.fresh 0 with state := .locked }) 31
      { SpindleRec.fresh 0 with state := .held, heldFrom := some .locked, heldMark := some 0 }
    (s.start.phase = .active ∧ s.pins.level .clearB = false ∧ s.pins.changes.of .clearB = none ∧
        (s.pins.take .clearB true none).level .clearB = true ∧ s.line.inbound = [] ∧
        s.line.busy.of .spindleTable = none) ∧
      ((s.spindle 30).map (fun r => r.state) = some .locked ∧ s.sideOf 30 = .B ∧
        30 ≤ s.spindlesA + s.spindlesB) ∧
      (s.spindle 31).map (fun r => (r.state, r.heldFrom)) = some (.held, some .locked) ∧
      ((s.spindle 48).map (fun r => r.state) = some .up ∧ s.sideOf 24 = .A ∧ s.sideOf 25 = .B) ∧
      (s.spindle 49 = none ∧ 49 ≠ 0) := by decide +kernel

theorem witness_ClearingSendsLockedSpindlesDown_inputs :
    (base.mayChange 0 .clearA true ∧ base.mayChange 0 .clearB true) ∧ ¬filtering.mayChange 0 .clearB true ∧
      base.canHand 0 .spindleTable :=
  ⟨⟨mayChange_of_pins _ _ _ _ rfl rfl, mayChange_of_pins _ _ _ _ rfl rfl⟩,
    filtering_mayNotChange _, canHand_of_line _ rfl _ _⟩

theorem witness_PulsesCountDelivery :
    base.underWay ∧ base.drive.remainder < base.cfg.pulses * 10000 ∧
      (∀ t ∈ [1000000000, 1000000040], base.clock ≤ t) ∧
      (base.drive.lastPulse :: [1000000000, 1000000040]).Pairwise (fun a b => a + 40 ≤ b) :=
  ⟨base_underWay, by decide +kernel⟩

/-- The last remainder that completes no decimetre; a pulse just 40 µs after the last one and an edge one microsecond too
early; a wait that has just run out; a period that is due. -/
theorem witness_RollerAndPwmEvents :
    base.underWay ∧ 1 ≤ base.cfg.pulses ∧
      { base.drive with remainder := 151517 }.remainder + base.cfg.circumference < base.cfg.pulses * 10000 ∧
      (let d := { base.drive with lastPulse := 999999960 }; d.lastPulse + 40 ≤ max base.clock 0) ∧
      (let d := { base.drive with lastPulse := 999999961 }; max base.clock 0 < d.lastPulse + 40) ∧
      base.drive.turning = true ∧ base.drive.lastPulse + 500000 ≤ max base.clock 1000490000 ∧
      base.start.phase ≠ .off ∧ base.start.phase ≠ .inReset ∧ base.start.phase ≠ .configFault ∧
      base.drive.pwmNext ≤ max base.clock 0 :=
  ⟨base_underWay, by decide +kernel⟩

theorem witness_FullCopStopsTheFrame :
    ∀ atDoff ∈ [false, true], ∀ m ∈ [FrameMode.running, .restart],
      let s := { inMode m with
        pins := { base.pins with atDoff := atDoff }
        drive := { base.drive with remainder := 151518, d := 35999, fill := 999 } }
      s.start.phase = .active ∧ (s.frame.mode = .running ∨ s.frame.mode = .restart) ∧ 1 ≤ s.cfg.pulses ∧
        (s.drive.remainder + s.cfg.circumference) / (s.cfg.pulses * 10000) = 1 ∧ s.drive.fullLatch = false ∧
        s.drive.fill < 1000 ∧ 10 * s.cfg.copLength ≤ (s.drive.d + 1 - s.drive.copMark).toNat ∧
        1 ≤ s.cfg.copLength ∧ s.drive.lastPulse + 40 ≤ max s.clock 0 := by decide +kernel

/-- A decimetre that reaches the claim fill, and one that fills the cop of a frame that stands. -/
theorem witness_FullCopStopsTheFrame_claim :
    (let s := { base with drive := { base.drive with d := 34919, fill := 969 } };
      s.drive.fill < s.cfg.claimFill ∧ min 1000 (1000 * (s.drive.d + 1 - s.drive.copMark).toNat /
          (10 * s.cfg.copLength)) = 970 ∧
        s.mayClaimAt s.clock = true ∧ s.addDecimetre.frame.claim = Claim.madeAt 1000000000 .none ∧
        s.addDecimetre.line.urgent.map (fun n => n.payload.map (fun b => b.toNat)) =
          [[17, 4, 1, 3, 202, 0, 48, 0, 0]]) ∧
      (let s := { inMode .stopped with drive := { base.drive with d := 35999, fill := 999 } };
        s.addDecimetre.frame.mode = .stopped ∧ s.addDecimetre.frame.fullAt = some 1000 ∧
          s.addDecimetre.frame.claim.state = .none) := by decide +kernel

/-- A running frame that trims, one that claims, one that does neither because it stands, and one that claims in
FULL-WAIT when its pause has just run out. -/
theorem witness_UpdateTickBringsDriveUpToDate :
    (base.start.phase = .active ∧ base.drive.tickDue = some 1000000000 ∧ 1000000000 ≤ max base.clock 0) ∧
      (run1 (.updateTick 0) base).frame.claim.state = .none ∧
      (run1 (.updateTick 0) { base with drive := { base.drive with fill := 970, d := 34920, tickMark := 34890 } }
        ).frame.claim.state = .claimed ∧
      (run1 (.updateTick 0) (inMode .stopped)).drive.speed = 16453 ∧
      (run1 (.updateTick 0) { fullIn .fullWait with
        frame := { base.frame with mode := .fullWait, claim := { Claim.idle with pause := some 1000000 } } }
        ).frame.claim.state = .claimed := by decide +kernel

/-- R108, R109, R103: the DOFF-CLAIM of a tick and the FORECAST that the same tick builds. -/
theorem witness_UpdateTickBringsDriveUpToDate_notices :
    let s := run1 (.updateTick 0)
      { base with drive := { base.drive with fill := 970, d := 34920, tickMark := 34890 } }
    s.line.urgent.map (fun n => (n.kind, n.dst, n.payload.map (fun b => b.toNat))) =
        [(some .doffClaim, 80, [17, 4, 1, 3, 202, 0, 7, 0, 0])] ∧
      s.line.routine.map (fun n => (n.kind, n.dst, n.payload.map (fun b => b.toNat))) =
        [(some .forecast, 255, [17, 4, 1, 0, 7, 3, 202])] := by decide +kernel

/-- The measured forecast differs by two, by one, between 999 and another, and before any FORECAST. -/
theorem witness_UpdateTickBringsDriveUpToDate_forecast :
    forecastDiffers (some 48) 50 ∧ ¬forecastDiffers (some 48) 49 ∧ forecastDiffers (some 998) 999 ∧
      ¬forecastDiffers (some 999) 999 ∧ forecastDiffers none 48 := by
  unfold forecastDiffers
  refine ⟨fun f h => ?_, fun h => ?_, fun f h => ?_, fun h => ?_, fun f h => ?_⟩
  · cases h; decide
  · exact absurd (h 48 rfl) (by decide)
  · cases h; decide
  · exact absurd (h 999 rfl) (by decide)
  · cases h

/-- A section with roving left, one that falls due by its tenth, and one whose estimate has just reached 0. -/
theorem witness_UpdateTickJudgesSupplies :
    let s := { base with roving := { base.roving with
      recs := [SupplyRec.fresh 1 0 18000, SupplyRec.fresh 2 0 794, SupplyRec.fresh 25 0 715] } }
    s.start.phase = .active ∧ s.drive.tickDue = some 1000000000 ∧ 1000000000 ≤ max s.clock 0 ∧
      s.cfg.batchDelay ≠ 0 ∧ (s.roving.recs.map (fun r => r.creel)).Nodup ∧
      (run1 (.updateTick 0) s).roving.recs.map (fun r => (r.remaining, r.state)) =
        [(17285, .none), (79, .due), (0, .runOut)] := by decide +kernel

/-- With a batch delay of 0 a section that falls due is asked for in the same event, after the one that ran out (R122). -/
theorem witness_UpdateTickJudgesSupplies_noDelay :
    let s := { base with
      start := { base.start with settings := { cfgT with batchDelay := 0 } }
      roving := { base.roving with
        recs := [SupplyRec.fresh 1 0 18000, SupplyRec.fresh 2 0 794, SupplyRec.fresh 25 0 715] } }
    let s' := run1 (.updateTick 0) s
    s'.roving.recs.map (fun r => r.state) = [.none, .asked, .runOut] ∧ s'.roving.batchDue = none ∧
      s'.line.urgent.map (fun n => (n.reference, n.payload.map (fun b => b.toNat))) =
        [(1, [17, 0, 0, 0, 128, 0, 0, 0, 0]), (2, [17, 64, 0, 0, 0, 0, 0, 0, 17])] := by decide +kernel

/-- Fewer than six buckets and six, a rate known and unknown, an empty sum; a full cop, an unknown rate and rate 1. -/
theorem witness_RateForecastAndDutyArithmetic :
    (base.drive.buckets.length ≤ 6 ∧ base.drive.eligible = true ∧ base.drive.buckets.length = 6 ∧
        base.drive.tickRate.buckets.sum ≠ 0) ∧
      ({ base.drive with buckets := [7] }.buckets.length < 6 ∧ { base.drive with eligible := false }.eligible = false ∧
        ({ base.drive with buckets := [], eligible := false }.tickRate).buckets.sum = 0) ∧
      ({ base.drive with fill := 1000 }.fill = 1000 ∧ base.drive.fill ≠ 1000 ∧
        { base.drive with rate := none }.rate = none ∧ { base.drive with rate := some 1 }.rate = some 1) ∧
      1 ≤ cfgT.sFull := by decide +kernel

/-- A trimmed speed inside the limits, one below and one above them, and those at the limits. -/
theorem witness_TargetSpeedIsClampedAfterTrim :
    cfgT.sMin ≤ cfgT.sMax ∧ profileSpeed 765 cfgT.profile * (1000 - 60) / 1000 = 15465 ∧
      (let c := { cfgT with sMin := 15466 }; c.sMin ≤ c.sMax ∧ 15465 < c.sMin) ∧
      (let c := { cfgT with sMax := 15464 }; c.sMin ≤ c.sMax ∧ c.sMax < 15465) ∧
      (let c := { cfgT with sMin := 15465, sMax := 15465 }; c.sMin ≤ 15465 ∧ 15465 ≤ c.sMax) := by decide +kernel

/-- A rising and a falling segment, the last point, and a fill at a point. -/
theorem witness_ProfileSpeedFollowsThePoints :
    (([] ++ ⟨0, 12000⟩ :: ⟨50, 15500⟩ :: [⟨800, 16500⟩] : List ProfilePoint).map (fun x => x.fill)).Pairwise
        (fun f g => f < g) ∧
      (0 ≤ 0 ∧ 0 < 50) ∧ (0 ≤ 49 ∧ 49 < 50) ∧
      (([⟨0, 12000⟩] ++ ⟨700, 16000⟩ :: ⟨1000, 15000⟩ :: [] : List ProfilePoint).map (fun x => x.fill)).Pairwise
        (fun f g => f < g) ∧
      (700 ≤ 701 ∧ 701 < 1000) ∧ 1000 ≤ 1000 := by decide +kernel

/-- A target within one ramp step on either side and at its ends, and beyond it on either side. -/
theorem witness_RampBoundsTheReference :
    cfgT.sMin ≤ cfgT.sMax ∧ targetSpeed cfgT base.drive.fill 0 = 16453 ∧
      (∀ p ∈ [15953, 16453, 16953], cfgT.sMin ≤ p ∧ p ≤ cfgT.sMax ∧ 16453 ≤ p + cfgT.rampStep ∧
        p ≤ 16453 + cfgT.rampStep) ∧
      (cfgT.sMin ≤ 8000 ∧ 8000 ≤ cfgT.sMax ∧ 8000 + cfgT.rampStep < 16453) ∧
      (cfgT.sMin ≤ 20000 ∧ 20000 ≤ cfgT.sMax ∧ 16453 + cfgT.rampStep < 20000) ∧
      (base.frame.mode = .running ∨ base.frame.mode = .restart) := by decide +kernel

/-- The first and the fourth repeat, each just due, and the withdrawal just due. -/
theorem witness_OpenCallIsRepeatedThenWithdrawn :
    ((calledT .opened).start.phase = .active ∧ (calledT .opened).liveCall 305 = some (callT .opened) ∧
        (callT .opened).state = .opened) ∧
      ((callT .opened).repeats < 4 ∧
        (callT .opened).openedAt + 1000 * (((callT .opened).repeats + 1) * (calledT .opened).cfg.repeatInterval) ≤
          max (calledT .opened).clock 1005000000 / 1000) ∧
      (let c := { callT .opened with repeats := 3 };
        c.repeats < 4 ∧ c.openedAt + 1000 * ((c.repeats + 1) * cfgT.repeatInterval) ≤
          max (calledT .opened).clock 1050000000 / 1000) ∧
      (callT .opened).openedAt + 1000 * (5 * (calledT .opened).cfg.repeatInterval) ≤
        max (calledT .opened).clock 1065000000 / 1000 ∧
      ((calledT .opened).spindle 5).map (fun r => r.state) = some .called := by decide +kernel

/-- The payloads of CALL, CANCEL, ASSIGN and CLOSE for spindle 5 (R202). -/
theorem witness_OpenCallIsRepeatedThenWithdrawn_payloads :
    let s := calledT .taken
    let c := callT .taken
    (s.spindle c.spindle).isSome = true ∧ c.state = .taken ∧ c.takenAt = some 990000 ∧ (callT .verify).state = .verify ∧
      [s.callNotice c, s.cancelNotice c, s.assignNotice 61 c, s.assignNotice 61 (callT .verify),
        s.closeNotice 61 305 5 .lapsed].map (fun n => n.payload.map (fun b => b.toNat)) =
        [[0, 5, 1, 1, 1, 5, 0, 0, 0, 20], [0, 5], [0, 5, 1, 1, 1, 5, 50], [0, 5, 1, 1, 1, 5, 0], [0, 5, 3]] := by
  decide +kernel

theorem witness_TakeIsAnsweredByTheCall_hands (st : CallState) : (calledT st).canHand 0 .dispatcher :=
  canHand_of_line _ rfl _ _

theorem witness_TakeIsAnsweredByTheCall :
    (calledT .opened).start.phase = .active ∧ (calledT .opened).liveCall 304 = none ∧
      (calledT .opened).liveCall 305 = some (callT .opened) ∧ (callT .opened).state = .opened ∧
      ((calledT .opened).spindle 5).map (fun r => r.state) = some .called ∧
      (∀ st ∈ [CallState.taken, .verify], (calledT st).start.phase = .active ∧
        (calledT st).liveCall 305 = some (callT st) ∧ (callT st).state ≠ .opened ∧
        (callT st).carriage = some 61 ∧ (callT st).carriage ≠ some 62) := by decide +kernel

theorem witness_DoneIsAnsweredByTheCall_hands (st : CallState) : (calledT st).canHand 0 .dispatcher :=
  canHand_of_line _ rfl _ _

theorem witness_DoneIsAnsweredByTheCall :
    (∀ st ∈ [CallState.opened, .taken, .verify], (calledT st).start.phase = .active ∧
        (calledT st).liveCall 304 = none ∧ (calledT st).liveCall 305 = some (callT st) ∧ (callT st).state = st) ∧
      (∀ st ∈ [CallState.taken, .verify], (callT st).state ≠ .opened ∧ (callT st).carriage = some 61 ∧
        (callT st).carriage ≠ some 62) := by decide +kernel

/-- A timeout and a verify window each at its moment; the first and the last of three attempts. -/
theorem witness_TimedOutCallsAreFailedAttempts :
    ((calledT .taken).start.phase = .active ∧ (calledT .taken).liveCall 305 = some (callT .taken) ∧
        (callT .taken).state = .taken ∧ (callT .taken).takenAt = some 990000 ∧
        990000 + 1000 * (calledT .taken).cfg.piecingTimeout ≤ max (calledT .taken).clock 1050000000 / 1000) ∧
      ((calledT .verify).liveCall 305 = some (callT .verify) ∧ (callT .verify).state = .verify ∧
        (callT .verify).verifyUntil = some 995000 ∧ 995000 ≤ max (calledT .verify).clock 0 / 1000) ∧
      (((calledT .taken).spindle 5).map (fun r => (r.state, decide (r.attempts + 1 < cfgT.maxAttempts))) =
        some (.taken, true)) ∧
      ((withRec base 5 { SpindleRec.fresh 0 with state := .taken, attempts := 2 }).spindle 5).map
        (fun r => (r.state, decide (cfgT.maxAttempts ≤ r.attempts + 1))) = some (.taken, true) := by decide +kernel

/-- Two ends that wait and one whose not-before lies ahead, in a frame that may open calls and in one that stands. -/
theorem witness_WalkOpensTheOldestBreaks :
    let down (b : Option Nat) : SpindleRec :=
      { SpindleRec.fresh 0 with state := .down, downSince := 995, notBefore := b }
    let s := withRec (withRec (withRec { base with table := { base.table with breakList := [7, 5, 30] } } 5
      (down (some 1000))) 7 (down (some 1001))  ) 30 (down none)
    s.table.breakList.Nodup ∧ s.callsMayOpen ∧ s.endWaits 5 ∧ s.endWaits 30 ∧
      s.pieces.calls.length ≤ s.cfg.openCallLimit ∧ s.walk.pieces.calls.map (fun c => c.spindle) = [5, 30] ∧
      ¬(inMode .stopped).callsMayOpen :=
  ⟨by decide +kernel, ⟨Or.inl rfl, rfl, ⟨carriage 61 999000, by decide +kernel⟩, by decide +kernel⟩,
    ⟨_, rfl, rfl, by decide +kernel, fun _ h => by cases h; decide +kernel⟩,
    ⟨_, rfl, rfl, by decide +kernel, fun _ h => nomatch h⟩, by decide +kernel, by decide +kernel,
    fun h => by have := h.1; revert this; decide +kernel⟩

/-- Three ends that wait and room for two calls: the walk takes the first two of the break list. -/
theorem witness_WalkOpensTheOldestBreaks_order :
    let down : SpindleRec := { SpindleRec.fresh 0 with state := .down, downSince := 995 }
    let s := withRec (withRec (withRec { base with table := { base.table with breakList := [5, 30, 31] } } 5 down) 30 down)
      31 down
    s.cfg.openCallLimit - s.pieces.calls.length = 2 ∧ s.walk.pieces.calls.map (fun c => c.spindle) = [5, 30] := by
  decide +kernel

/-- Two calls opened in one walk with the serial at 65,535, the number 1 free and taken by a live call (R64). -/
theorem witness_WalkOpensTheOldestBreaks_serials :
    let down : SpindleRec := { SpindleRec.fresh 0 with state := .down, downSince := 995 }
    let s (live : List Call) : State := withRec (withRec { base with
      start := { base.start with settings := { cfgT with openCallLimit := 3 } }
      pieces := { base.pieces with calls := live, serial := 65535 }
      table := { base.table with breakList := [7, 30] } } 7 down) 30 down
    let w (live : List Call) := ((s live).walk.pieces.calls.map (fun c => c.number), (s live).walk.pieces.serial,
      (s live).walk.line.routine.map (fun n => (n.kind, n.reference)))
    (s []).serialInRange ∧ (s []).cfg.openCallLimit ≤ 8 ∧
      w [] = ([65535, 1], 2, [(some .call, 65535), (some .call, 1)]) ∧
      w [{ callT .opened with number := 1 }] = ([1, 65535, 2], 3, [(some .call, 65535), (some .call, 2)]) :=
  ⟨⟨by decide +kernel, by decide +kernel⟩, by decide +kernel, by decide +kernel, by decide +kernel⟩

theorem witness_RunPermitRiseStartsTheFrame :
    (base.start.phase ≠ .off ∧ base.start.phase ≠ .inReset ∧ base.pins.runPermit = true) ∧
      ((inPhase .listening).start.phase ≠ .active) ∧
      (∀ m ∈ [FrameMode.halted, .stopped], ∀ driveFault ∈ [false, true],
        let s := { inMode m with pins := { Pins.idle with driveFault := driveFault } }
        s.start.phase = .active ∧ s.pins.runPermit = false ∧ s.frame.mode = m ∧ s.pins.driveFault = driveFault) ∧
      (let s := { fullIn .fullWait with pins := Pins.idle };
        s.start.phase = .active ∧ s.pins.runPermit = false ∧ s.frame.mode ≠ .halted ∧ s.frame.mode ≠ .stopped) ∧
      (inMode .halted).drive.fill < 1000 ∧ ¬(fullIn .halted).drive.fill < 1000 := by decide +kernel

/-- A rise that the filter takes in every mode and phase, and one that it does not. -/
theorem witness_RunPermitRiseStartsTheFrame_filter :
    (∀ m, ({ inMode m with pins := Pins.idle } : State).mayChange 0 .runPermit true) ∧
      (∀ p, ({ inPhase p with pins := Pins.idle } : State).mayChange 0 .runPermit true) ∧
      ¬filtering.mayChange 0 .runPermit true :=
  ⟨fun _ => mayChange_of_pins _ _ _ _ rfl rfl, fun _ => mayChange_of_pins _ _ _ _ rfl rfl,
    filtering_mayNotChange _⟩

theorem witness_OperatorAndDriveStopTheFrame_filter :
    (∀ m, (inMode m).mayChange 0 .runPermit false ∧ (inMode m).mayChange 0 .stop true ∧
        (inMode m).mayChange 0 .driveFault true) ∧
      ¬filtering.mayChange 0 .stop true ∧ ¬filtering.mayChange 0 .driveFault true ∧
      ¬({ filtering with pins := { filtering.pins with runPermit := true } } : State).mayChange 0 .runPermit false :=
  ⟨fun _ => ⟨mayChange_of_pins _ _ _ _ rfl rfl, mayChange_of_pins _ _ _ _ rfl rfl,
      mayChange_of_pins _ _ _ _ rfl rfl⟩,
    filtering_mayNotChange _, filtering_mayNotChange _,
    not_mayChange_of_pins _ _ 999990001 _ _ rfl (by decide +kernel)⟩

theorem witness_OperatorAndDriveStopTheFrame :
    (∀ m ∈ [FrameMode.halted, .running, .restart, .fullStop, .fullWait, .doffing, .doffStall, .stopped],
        (inMode m).start.phase = .active ∧ (inMode m).pins.runPermit = true ∧ (inMode m).pins.stop = false ∧
          (inMode m).pins.driveFault = false ∧ (inMode m).frame.mode = m) ∧
      (let s := { base with pins := { Pins.idle with stop := true, driveFault := true } };
        s.start.phase = .active ∧ s.pins.runPermit = false ∧ s.pins.stop = true ∧ s.pins.driveFault = true) := by
  decide +kernel

/-- Each timer at its moment in the mode that owns it, and the doff position in FULL-STOP and elsewhere. -/
theorem witness_TimersAndDoffPositionMoveTheFrame :
    let f := { base.frame with graceDue := some 1000000000, positionDue := some 1000000000,
                               doffingDue := some 1000000000 }
    base.start.phase = .active ∧ 1000000000 ≤ max base.clock 0 ∧
      ({ f with mode := .restart }.graceDue = some 1000000000 ∧
        { f with mode := .fullStop }.positionDue = some 1000000000 ∧
        { f with mode := .doffing }.doffingDue = some 1000000000) ∧
      (base.pins.atDoff = false ∧ (fullIn .fullStop).frame.mode = .fullStop ∧ base.frame.mode ≠ .fullStop) ∧
      base.start.phase ≠ .off ∧ base.start.phase ≠ .inReset := by decide +kernel

theorem witness_TimersAndDoffPositionMoveTheFrame_filter :
    (fullIn .fullStop).mayChange 0 .atDoff true ∧ base.mayChange 0 .atDoff true ∧ ¬filtering.mayChange 0 .atDoff true ∧
      movesInput (.atDoffPosition 0) = some (0, .atDoff, true) ∧
      movesInput (.buttonRelease 0 .stop) = some (0, .stop, false) ∧
      ({ base with pins := { Pins.idle with stop := true } } : State).mayChange 0 .stop false ∧
      (inPhase .listening).start.phase ≠ .active ∧ (inPhase .inReset).start.phase = .inReset :=
  ⟨mayChange_of_pins _ _ _ _ rfl rfl, mayChange_of_pins _ _ _ _ rfl rfl, filtering_mayNotChange _,
    rfl, rfl, mayChange_of_pins _ _ _ _ rfl rfl, by decide +kernel, rfl⟩

theorem witness_DofferStartsAndAborts_hands (m : FrameMode) :
    (fullIn m).canHand 0 .frameDoff ∧ (inMode m).canHand 0 .frameDoff :=
  ⟨canHand_of_line _ rfl _ _, canHand_of_line _ rfl _ _⟩

/-- R109: the DOFF-CLAIM of an aborted doff, with FULL-WAIT, the fill and the measured forecast, and no last answer. -/
theorem witness_DofferStartsAndAborts_claim :
    let s := run1 (.doffAbort 0 80) (fullIn .doffing)
    s.frame.mode = .fullWait ∧ s.line.urgent.map (fun n => (n.kind, n.dst, n.payload.map (fun b => b.toNat))) =
      [(some .doffClaim, 80, [17, 4, 4, 3, 232, 0, 48, 0, 0])] := by decide +kernel

theorem witness_DofferStartsAndAborts :
    (∀ m ∈ [FrameMode.fullWait, .doffing, .doffStall], (fullIn m).start.phase = .active ∧ (fullIn m).frame.mode = m) ∧
      (base.start.phase = .active ∧ base.frame.mode ≠ .fullWait ∧ base.frame.mode ≠ .doffing ∧
        base.frame.mode ≠ .doffStall ∧ ¬(base.frame.mode = .halted ∧ base.drive.fill = 1000)) ∧
      ¬((inMode .halted).frame.mode = .halted ∧ (inMode .halted).drive.fill = 1000) ∧ 81 ≠ base.cfg.dofferStation := by
  decide +kernel

theorem witness_CompletedDoffBeginsTheNextCop_causes (m : FrameMode) :
    (fullIn m).canHand 0 .frameDoff ∧ (fullIn m).mayChange 0 .doffDone true ∧
      (run1 (.doffEnd 0 80) (fullIn .halted)).line.routine.map (fun n => n.kind) = [some .forecast] ∧
      (run1 (.doffEnd 0 80) { fullIn .halted with frame := { FrameUnit.fresh with lastForecast := some 203 } }
        ).line.routine = [] :=
  ⟨canHand_of_line _ rfl _ _, mayChange_of_pins _ _ _ _ rfl rfl, by decide +kernel, by decide +kernel⟩

/-- DOFFING with every outcome of R100, HALTED with a full cop, RUNNING; full-at and doff-start-at present or absent. -/
theorem witness_CompletedDoffBeginsTheNextCop :
    (∀ m ∈ [FrameMode.doffing, .doffStall, .halted, .running], (fullIn m).start.phase = .active ∧
        (fullIn m).pins.doffDone = false ∧ (fullIn m).frame.mode = m ∧ (fullIn m).drive.fill = 1000) ∧
      (base.pins.driveFault = false ∧ base.pins.runPermit = true ∧ base.frame.permitDropped = false) ∧
      (Pins.idle.driveFault = false ∧ Pins.idle.runPermit = false) ∧
      { Pins.idle with driveFault := true }.driveFault = true ∧ base.frame.fullAt = none ∧
      (run1 (.doffEnd 0 80) { fullIn .doffing with frame := { base.frame with mode := .doffing, fullAt := some 940 } }
        ).tally.opened.counts.dofferWait = 1 := by decide +kernel

theorem witness_ClaimIsAnsweredRepeatedAndPaused_hands (claim : Claim) :
    ({ base with frame := { base.frame with claim := claim } } : State).canHand 0 .frameDoff :=
  canHand_of_line _ rfl _ _

/-- A claim that waits with one and with five tries, an answer of the doffer with and without a claim, a pause that runs
out near full and far from it, and a FORECAST that is due. -/
theorem witness_ClaimIsAnsweredRepeatedAndPaused :
    (base.start.phase = .active ∧ base.frame.claim.state = .none) ∧
      ((Claim.madeAt 990000000 .none).state ≠ .none ∧ (Claim.madeAt 990000000 .none).state = .claimed ∧
        (Claim.madeAt 990000000 .none).answerDue = some 1000000000 ∧ 1000000000 ≤ max base.clock 0 ∧
        (Claim.madeAt 990000000 .none).retries < 5 ∧
        5 ≤ { Claim.madeAt 990000000 .none with retries := 5 }.retries) ∧
      ({ Claim.idle with pause := some 1000000 }.pause = some 1000000 ∧ 1000000 ≤ max base.clock 0 / 1000 ∧
        (fullIn .fullWait).frame.mode = .fullWait ∧
        ¬(base.cfg.claimFill ≤ base.drive.fill ∨ base.drive.measured ≤ base.cfg.dofferLead) ∧
        base.frame.mode ≠ .fullWait) ∧
      (base.frame.forecastDue = some 1000000000) := by decide +kernel

theorem witness_TrimFollowsTheDoffOutlook :
    40 ∈ [40, 48] ∧ 48 ∈ [40, 48] ∧ (∀ m ∈ [40, 48], m ≤ 48) ∧ ¬(∀ m ∈ [40, 48], m ≤ 40) ∧
      48 + cfgT.slotWidth ≤ 63 ∧ 1 ≤ cfgT.slotWidth := by decide +kernel

/-- A pass in flight on a side with a chain, a side with none, the read of a configuration, a notice and a jam. -/
theorem witness_OutputsFollowModeAndCauses_outputs :
    (base.start.phase = .active ∧ base.modulesOf .A ≠ 0) ∧
      ({ base with start := { base.start with settings := { cfgT with sectionsB := 0 } } } : State).modulesOf .B = 0 ∧
      ({ inPhase .reading with clock := 10559 }.start.phase = .reading ∧
        { inPhase .reading with clock := 10559 }.clock < (inPhase .reading).start.phaseStart + 10560) ∧
      ((base.notice .close 61 1 []).wireBits[87]? ≠ none ∧ (base.notice .close 61 1 []).wireBits[88]? = none) ∧
      (999999998 + 0 * base.bitTime ≤ base.clock ∧ base.clock < 999999999 + (0 + 1) * base.bitTime) ∧
      (let s : State := { base with line := { base.line with
          flight := some ⟨base.notice .close 61 1 [], 1, .jamming 1000000002⟩ } };
        1000000002 + 31 * s.bitTime ≤ s.clock + 32 * s.bitTime ∧ s.lineLevel.isSome = true) := by decide +kernel

theorem witness_OutputsFollowModeAndCauses :
    ((inPhase .off).start.phase = .off ∧ (inPhase .inReset).start.phase = .inReset ∧
        (inPhase .configFault).start.phase = .configFault ∧ (inPhase .reading).start.phase = .reading) ∧
      base.driveEnable = true ∧ base.pwmShare = 674 ∧ (inPhase .off).pwmShare = 0 := by decide +kernel

/-- A batch timer that runs out with a section due and one within the lookahead, one with none, and the ask sequence at
both its ends. -/
theorem witness_BatchTimerAsksForDueSections :
    (let s := { base with roving := { base.roving with
        batchDue := some 1000000
        recs := [{ SupplyRec.fresh 1 0 2500 with state := .due, time := some 59 },
                 { SupplyRec.fresh 25 0 4000 with time := some 90 }] } };
      s.start.phase = .active ∧ s.roving.batchDue = some 1000000 ∧ 1000000 ≤ max s.clock 0 / 1000 ∧
        (∃ r ∈ s.roving.recs, r.state = .due) ∧ s.line.urgent.length < 12 ∧
        (run1 (.batchTimer 0) s).roving.recs.map (fun r => r.state) = [.asked, .asked]) ∧
      (∀ r ∈ base.roving.recs, r.state ≠ .due) ∧ 1 ≤ base.roving.askSeq ∧ base.roving.askSeq ≤ 65535 ∧
      (base.handAsks [SupplyRec.fresh 1 0 1]).roving.askSeq = 2 ∧
      ({ base with roving := { base.roving with askSeq := 65535 } }.handAsks [SupplyRec.fresh 1 0 1]).roving.askSeq =
        1 := by decide +kernel

/-- R123: of thirteen sections the one with the longest time to run-out is left for the second notice, whatever its number;
equal times go by number. -/
theorem witness_BatchTimerAsksForDueSections_order :
    let s : State := { base with roving := { base.roving with
      recs := (List.range 13).map (fun k =>
        { SupplyRec.fresh (k + 1) 0 2500 with state := .due, time := some (if k = 2 then 90 else 50) }) } }
    s.batchRunsOut.line.urgent.map (fun n => (n.reference, (n.payload.take 7).map (fun b => b.toNat))) =
        [(1, [17, 223, 248, 0, 0, 0, 0]), (2, [17, 32, 0, 0, 0, 0, 0])] := by decide +kernel

/-- With a batch delay of 0 the timer's start is its end: the sections due are asked for at once. -/
theorem witness_BatchTimerAsksForDueSections_noDelay :
    let s : State := { supplyT (fun r => { r with state := .due, time := some 59 }) with
      start := { base.start with settings := { cfgT with batchDelay := 0 } } }
    s.roving.batchDue = none ∧ s.cfg.batchDelay = 0 ∧ base.cfg.batchDelay ≠ 0 ∧
      s.startBatch.roving.recs.map (fun r => r.state) = [.asked, .none] ∧
      base.startBatch.roving.batchDue = some 1045000 := by decide +kernel

/-- The same silence with a batch delay of 0: the fifth ask of an ASKED section unanswered, asked again at once. -/
theorem witness_RailSilenceAndExpiries_noDelay :
    let s : State := { supplyT (fun r => { r with state := .asked, asks := 5, retryAt := some 1000000 }) with
      start := { base.start with settings := { cfgT with batchDelay := 0 } } }
    s.start.phase = .active ∧ (s.roving.recs.map (fun r => r.creel)).Nodup ∧
      (∃ r ∈ s.roving.recs, r.state = .asked ∧ r.retryAt = some 1000000 ∧ 5 ≤ r.asks) ∧
      ((run1 (.rovingAnswerWait 0) s).supply 1).map (fun r => (r.state, r.asks)) = some (.asked, 1) := by
  decide +kernel

/-- R125, R127, R134: an unanswered ask and a kept eta that ends are asked for again, the shorter time first in the batch. -/
theorem witness_RailSilenceAndExpiries_notices :
    let r (creel asks time : Nat) (st : SupplyState) : SupplyRec :=
      { SupplyRec.fresh creel 0 2500 with state := st, asks := asks, time := some time, retryAt := some 1000000 }
    let w : State := { base with roving := { base.roving with recs := [r 1 2 30 .asked, r 25 1 0 .runOut] } }
    let e := supplyT (fun r => { r with state := .runOut, time := some 0, eta := some ⟨5, 100000⟩ })
    (run1 (.rovingAnswerWait 0) w).line.urgent.map (fun n => (n.kind, n.dst, n.payload.map (fun b => b.toNat))) =
        [(some .rovingAsk, 90, [17, 128, 0, 0, 128, 0, 0, 0, 30, 0, 0])] ∧
      (run1 (.etaExpiry 0) e).line.urgent.map (fun n => (n.kind, n.dst, n.payload.map (fun b => b.toNat))) =
        [(some .rovingAsk, 90, [17, 128, 0, 0, 0, 0, 0, 0, 0])] := by decide +kernel

/-- Sections whose answer wait, kept eta or deferral ends at one moment, with fewer than five asks and with five. -/
theorem witness_RailSilenceAndExpiries :
    (base.start.phase = .active ∧ 1000000 ≤ max base.clock 0 / 1000 ∧ base.cfg.batchDelay ≠ 0) ∧
      (∀ asks ∈ [1, 4, 5], ∀ st ∈ [SupplyState.asked, .runOut],
        let s := supplyT (fun r => { r with state := st, asks := asks, retryAt := some 1000000 })
        (s.roving.recs.map (fun r => r.creel)).Nodup ∧
          (∀ r ∈ s.roving.recs, (r.state = .asked ∨ r.state = .runOut) → r.retryAt = some 1000000) ∧
          ∃ r ∈ s.roving.recs, (r.state = .asked ∨ r.state = .runOut) ∧ r.retryAt = some 1000000) ∧
      (∀ st ∈ [SupplyState.acked, .runOut],
        let s := supplyT (fun r => { r with state := st, eta := some ⟨5, 100000⟩ })
        (∀ r ∈ s.roving.recs, r.eta = none ∨ r.eta = some ⟨5, 100000⟩) ∧
          1000000 = 100000 + 60000 * (5 + 10)) ∧
      (∀ st ∈ [SupplyState.deferred, .runOut],
        let s := supplyT (fun r => { r with state := st, retryAt := some 1000000 })
        (∀ r ∈ s.roving.recs, r.state ≠ .none → r.asks = 0 ∧ r.retryAt = some 1000000) ∧
          ∃ r ∈ s.roving.recs, (r.state = .deferred ∨ (r.state = .runOut ∧ r.asks = 0)) ∧
            r.retryAt = some 1000000) := by decide +kernel

theorem witness_RailAnswersAndLayings_hands : base.canHand 0 .roving := canHand_of_line _ rfl _ _

/-- A creel section of the frame and one it has not; a laying of the default length and at the ends of the range. -/
theorem witness_RailAnswersAndLayings :
    base.start.phase = .active ∧ (∀ r ∈ base.roving.recs, r.creel ≠ 2) ∧ (∃ r ∈ base.roving.recs, r.creel = 25) ∧
      [0, 99, 100, 9000, 9001].map (fun m => ((run1 (.rovingLaid 0 90 25 m) base).supply 25).map (fun r => r.laidLength)) =
        [some 18000, some 1000, some 1000, some 90000, some 90000] ∧ 91 ≠ base.cfg.railStation := by decide +kernel

/-- A closed record with every value 0. -/
def closedT (n : Nat) : ClosedShift :=
  { shift := { OpenShift.first with number := n }, closedAt := 0, valuesA := ⟨true, 0, 0, 0, [], 0⟩,
    valuesB := ⟨true, 0, 0, 0, [], 0⟩ }

theorem witness_ShiftChangeClosesTheOpenShift_hands (tally : TallyUnit) :
    ({ base with tally := tally } : State).canHand 0 .tally :=
  canHand_of_line _ rfl _ _

/-- A ring of four that loses its oldest, and one whose record of the opening number goes first. -/
theorem witness_ShiftChangeClosesTheOpenShift :
    let s := { base with tally := { opened := { OpenShift.first with number := 412 },
                                    ring := [closedT 408, closedT 409, closedT 410, closedT 411] } }
    s.start.phase = .active ∧
      (s.tally.ring.length ≤ 4 ∧ (s.tally.ring.map (fun c => c.shift.number)).Nodup ∧
        s.tally.opened.number ∉ s.tally.ring.map (fun c => c.shift.number)) ∧
      (412 ≠ 0 ∧ 413 ≠ 0 ∧ 413 ≠ 412 ∧ 412 = s.tally.opened.number) ∧
      (s.ringRecord 411 = some (closedT 411) ∧ 411 ≠ s.tally.opened.number) ∧ s.ringRecord 405 = none ∧
      (run1 (.shiftChange 0 230 412 413 1) s).tally.ring.map (fun c => c.shift.number) = [409, 410, 411, 412] ∧
      (run1 (.shiftChange 0 230 412 410 1) s).tally.ring.map (fun c => c.shift.number) = [408, 409, 411, 412] := by
  decide +kernel

theorem witness_QueriesAreAnsweredInThreeParts_hands (tally : TallyUnit) :
    ({ base with tally := tally } : State).canHand 0 .tally :=
  canHand_of_line _ rfl _ _

/-- A side with values at their greatest, in their places; part 1 with and without a mill stamp. -/
theorem witness_QueriesAreAnsweredInThreeParts_layout :
    (sidePart 2 ⟨1, 2, 3, 4, 5, 6, 7, 8⟩ ⟨true, 4294967295, 1000, 16777215, [⟨576, 255⟩], 1023⟩).map (fun b => b.toNat) =
        [190, 143, 252, 255, 255, 255, 255, 255, 255, 255, 0, 1, 2, 0, 3, 4, 5, 6, 7, 8, 2, 64, 255] ∧
      ((partOne { OpenShift.first with stamp := some 4294967295 } true 1).take 7).map (fun b => b.toNat) =
        [65, 255, 255, 255, 255, 0, 1] ∧
      ((partOne OpenShift.first false 65536).take 7).map (fun b => b.toNat) = [64, 0, 0, 0, 0, 255, 255] := by
  decide +kernel

theorem witness_QueriesAreAnsweredInThreeParts :
    let s := { base with tally := { base.tally with ring := [closedT 411] } }
    (s.start.phase = .active ∧ 1 = s.tally.opened.number ∧ s.ringRecord 411 = some (closedT 411) ∧
        411 ≠ 0 ∧ 411 ≠ s.tally.opened.number ∧ s.ringRecord 408 = none) ∧
      s.line.routine.length ≤ 9 ∧ OpenShift.first.inRange := by
  refine ⟨by decide +kernel, by decide +kernel, ?_⟩
  unfold OpenShift.inRange FrameCounts.inRange SideCounts.inRange
  decide +kernel

/-- The queue empty, at 11 and full, and a FORECAST that already waits. -/
theorem witness_HandedNoticeJoinsItsQueue :
    let f := base.forecastNotice
    f.kind = some .forecast ∧ f.urgent = false ∧ (∃ m ∈ [f], m.kind = f.kind) ∧
      (¬∃ m ∈ List.replicate 11 (base.notice .tally 230 1 []), m.kind = f.kind) ∧
      (List.replicate 11 (base.notice .tally 230 1 [])).length < 12 ∧
      12 ≤ (List.replicate 12 (base.notice .tally 230 1 [])).length := by decide +kernel

/-- An urgent notice behind one whose station holds, the gap just met with and without pacing, and a routine notice. -/
theorem witness_FirstAttemptTakesTheOldestEligible :
    let s : State := { base with line := { base.line with
      lastTransition := 999999952
      urgent := [base.notice .close 61 1 [], base.notice .close 62 2 []]
      routine := [base.notice .call 255 3 []]
      peers := [{ carriage 61 999000 with holdUntil := some 1000001 }, carriage 62 999000] } }
    s.start.phase = .active ∧ s.line.flight = none ∧ s.line.receiving = false ∧
      s.line.lastTransition + (if s.line.pacing = 0 then 24 else 120) * s.bitTime ≤ max s.clock 0 ∧
      s.line.urgent = [base.notice .close 61 1 []] ++ base.notice .close 62 2 [] :: [] ∧
      (∀ m ∈ [base.notice .close 61 1 []], (s.later 0).eligible m = false) ∧
      (s.later 0).eligible (base.notice .close 62 2 []) = true ∧ (base.notice .close 62 2 []).urgent = true ∧
      ((s.later 0).eligible (base.notice .call 255 3 []) = true ∧ (base.notice .call 255 3 []).urgent = false) ∧
      (∀ m ∈ ({ s with line := { s.line with urgent := [base.notice .close 61 1 []] } } : State).line.urgent,
        (s.later 0).eligible m = false) := by decide +kernel

/-- An attempt under way, its jam and its wait, each at its moment; attempts 15 and 16. -/
theorem witness_AttemptsEndInSendingOrBackOff :
    let s (a : Nat) (p : SendPhase) : State := { base with line := { base.line with
      flight := some ⟨base.notice .tallyNone 230 408 [], a, p⟩ } }
    ((s 1 (.sending 999999824)).start.phase = .active ∧ (s 1 (.sending 999999824)).line.flight.isSome = true ∧
        999999824 + (16 + 8 * (9 + 0)) * base.bitTime ≤ max base.clock 0) ∧
      ((s 15 (.jamming 1000000000)).line.flight.map (fun f => decide (f.attempts < 16)) = some true ∧
        (s 16 (.jamming 1000000000)).line.flight.map (fun f => decide (16 ≤ f.attempts)) = some true ∧
        1000000000 ≤ max base.clock 0) ∧
      ((s 1 (.backingOff 1000000000)).line.receiving = false ∧
        (s 1 (.backingOff 1000000000)).line.lastTransition + 24 * base.bitTime ≤ max base.clock 0) := by
  decide +kernel

/-- The line just idle, not yet idle, and driven by the part; a good frame to this part, one to another part, one of its own
number, one of a source out of range, one too short. -/
theorem witness_ReceivedFramesAreClassed :
    base.underWay ∧ base.line.receiving = false ∧ base.transmits = false ∧
      999999976 + 12 * base.bitTime ≤ max base.clock 0 ∧ max base.clock 0 < 999999977 + 12 * base.bitTime ∧
      ({ base with line := { base.line with
        flight := some ⟨base.notice .tally 230 1 [], 1, .sending 0⟩ } } : State).transmits = true ∧
      { base.line with receiving := true }.receiving = true ∧
      (let b := (fromT 61 .take 305 [0#8, 5#8]).bytes;
        goodFrame b = true ∧ byteAt b 1 ≠ 0 ∧ byteAt b 1 ≤ 239 ∧ byteAt b 1 ≠ base.start.strap ∧
          byteAt b 0 = base.start.strap) ∧
      (let b := ({ fromT 239 .take 305 [0#8, 5#8] with dst := 18 }).bytes;
        goodFrame b = true ∧ byteAt b 1 ≤ 239 ∧ byteAt b 0 ≠ base.start.strap ∧ byteAt b 0 ≠ 255) ∧
      (let b := (fromT 17 .take 305 [0#8, 5#8]).bytes;
        goodFrame b = true ∧ byteAt b 1 = base.start.strap) ∧
      (goodFrame (fromT 240 .hold 0 [1#8]).bytes = true ∧ 239 < byteAt (fromT 240 .hold 0 [1#8]).bytes 1) ∧
      goodFrame [17#8, 61#8] = false ∧ base.line.peers.length < 32 :=
  ⟨base_underWay, by decide +kernel⟩

/-- A head that waits for the tally unit with 13, 14, 15 and 16 notices queued, an idle block, and blocks that end. -/
theorem witness_InboundNoticesAreHandedInOrder :
    (∀ k ∈ [9, 10, 13, 14, 15], ∀ hold ∈ [none, some 1001020],
      let s : State := { base with line := { base.line with
        inbound := fromT 230 .tallyQuery 0 [] :: List.replicate k (fromT 61 .take 1 [0, 5]), ownHold := hold
        busy := { base.line.busy with tally := some 999999999 } } }
      s.start.phase = .active ∧ (fromT 61 .done 1 [0, 5, 1, 0]).owner = some .dispatcher ∧
        (fromT 61 .done 1 [0, 5, 1, 0]).longEnough = true ∧ (fromT 61 .done 1 [0, 5, 1, 0]).urgent = true ∧
        (fromT 231 .tallyQuery 2 []).urgent = false ∧ (fromT 230 .tallyQuery 0 []).owner = some .tally ∧
        s.line.busy.of .tally = some 999999999 ∧ 999999999 < max s.clock 0 ∧ s.line.inbound.length = k + 1) ∧
      (base.line.inbound = [] ∧ base.line.busy.of .dispatcher = none ∧ base.line.ownHold = none ∧
        base.cfg.holdThreshold < 15) := by decide +kernel

/-- The own HOLD standing: released by an idle block's notice, kept while the slots are few; two waiting notices handed one
after another, a third that waits for a busy block; a block that may be busy still. -/
theorem witness_InboundNoticesAreHandedInOrder_hold :
    (let s : State := { base with line := { base.line with ownHold := some 1001020 } };
      s.line.inbound = [] ∧ s.line.ownHold ≠ none ∧
        (s.accept (fromT 61 .take 1 [0, 5])).line.ownHold = none ∧
        (s.accept (fromT 61 .take 1 [0, 5])).line.urgent.map (fun n => (n.kind, n.payload)) =
          [(some .hold, [0#8]), (some .close, [0#8, 5#8, 8#8])]) ∧
      (let s : State := { base with line := { base.line with
          inbound := [fromT 61 .take 1 [0, 5], fromT 80 .doffStart 0 [], fromT 62 .take 2 [0, 5]]
          busy := { base.line.busy with tally := some 999970000 } } };
        (s.handHeads 17).line.inbound = [fromT 62 .take 2 [0, 5]] ∧
          (s.handHeads 17).line.busy.of .dispatcher = some 1000000000 ∧ mayBeBusy .dispatcher 1000000000 1000000000 ∧
          (s.handHeads 17).line.urgent.map (fun n => n.kind) = [some .close, some .doffRefuse]) ∧
      (¬mayBeBusy .tally 999969999 base.clock ∧ mayBeBusy .tally 999970000 base.clock) ∧
      takenBy (.take 0 61 305 5) = some (0, .dispatcher) := by
  unfold mayBeBusy
  decide +kernel

/-- An empty queue whose own block still works: the notice waits in its slot, and is handed when the block has finished. -/
theorem witness_InboundNoticesAreHandedInOrder_ownBlockBusy :
    let s : State := { base with line := { base.line with
      busy := { base.line.busy with frameDoff := some 1000000000 } } }
    s.line.inbound = [] ∧ s.line.busy.of .frameDoff = some 1000000000 ∧ mayBeBusy .frameDoff 1000000000 s.clock ∧
      (s.accept (fromT 80 .doffStart 0 [])).line.inbound = [fromT 80 .doffStart 0 []] ∧
      (run1 (.blockBusyEnds 1000000001 .frameDoff) (s.accept (fromT 80 .doffStart 0 []))).line.inbound = [] := by
  unfold mayBeBusy
  decide +kernel

/-- Notices that leave nothing but their learning: of a kind that is dropped, of a kind outside the table, below the least
payload, and of a queued kind and a fresh-start HELLO in the listening period. -/
theorem witness_InboundNoticesAreHandedInOrder_dropped :
    let unlisted : Notice := { fromT 61 .take 305 [0, 5] with kind := none }
    let hello : Notice := { fromT 80 .hello 0 [80, 3, 0] with dst := 255, fresh := true }
    (base.accept unlisted = base ∧ base.accept (fromT 61 .assign 305 [0, 5]) = base) ∧
      ((fromT 61 .done 305 [0, 5, 1]).longEnough = false ∧ (calledT .taken).accept (fromT 61 .done 305 [0, 5, 1]) =
        calledT .taken) ∧
      ((inPhase .listening).accept (fromT 61 .take 305 [0, 5]) = inPhase .listening ∧
        (inPhase .listening).accept hello = inPhase .listening) ∧
      ((fromT 61 .hold 0 [1]).longEnough = true ∧ (fromT 61 .hold 0 []).longEnough = false) := by decide +kernel

/-- Each row of the kinds learned from a sender of another kind and of the same kind, and notices too short (R183, R200). -/
theorem witness_PeersAreLearnedFromTheirNotices_kinds :
    let kind (k : Kind) (payload : List Byte) := ((base.learn (fromT 61 k 0 payload)).peer 61).map (fun p =>
      (p.kind, p.patrol, p.lastHeard))
    [kind .take [0, 5], kind .done [], kind .hold [1], kind .hello [61]] =
        List.replicate 4 (some (.piecer, [17], 1000000)) ∧
      [kind .doffStart [], kind .rovingAck [1], kind .unlock [], kind .cancel [], kind .hello [61, 4],
          kind .forecast [61]] =
        [PeerKind.doffer, .rail, .office, .frame, .rail, .frame].map (fun k => some (k, [], 1000000)) := by
  decide +kernel

/-- A station in the table and one that is not; a table of 32 whose least recently heard entries tie. -/
theorem witness_PeersAreLearnedFromTheirNotices :
    base.underWay ∧ 1 ≤ 61 ∧ 61 ≤ 239 ∧ 61 ≠ base.start.strap ∧ base.peer 61 = some (carriage 61 999000) ∧
      (base.peer 239 = none ∧ base.line.peers.length < 32) ∧
      (let s : State := { base with line := { base.line with
          peers := (List.range 32).map (fun k => carriage (30 + k) (if k = 5 ∨ k = 9 then 900000 else 990000)) } };
        s.peer 20 = none ∧ s.line.peers.length = 32 ∧ (s.line.peers.map (fun p => p.station)).Nodup ∧
          carriage 35 900000 ∈ s.line.peers ∧ 35 ≠ s.cfg.dofferStation ∧ 35 ≠ s.cfg.railStation ∧
          s.pieces.calls = [] ∧
          ∀ p ∈ s.line.peers, 900000 < p.lastHeard ∨ (900000 = p.lastHeard ∧ 35 ≤ p.station)) :=
  ⟨base_underWay, by decide +kernel⟩

/-- The listening period and the active part; the doffer with a claim standing, the rail, and another station. -/
theorem witness_FreshStartHelloIsAnswered :
    (1 ≤ 80 ∧ 80 ≤ 239 ∧ 80 ≠ base.start.strap ∧ base.cfg.batchDelay ≠ 0 ∧ (base.roving.recs.map (fun r => r.creel)).Nodup) ∧
      (inPhase .listening).start.phase = .listening ∧ base.start.phase = .active ∧
      (80 = base.cfg.dofferStation ∧ (Claim.madeAt 0 .none).state ≠ .none) ∧ 90 = base.cfg.railStation ∧
      base.frame.claim.state = .none := by decide +kernel

/-- A station that is the doffer and the rail: the claim is made again with its last answer kept, the section out of roving
is asked for, and the answer follows (R111, R129, R134, R185). -/
theorem witness_FreshStartHelloIsAnswered_both :
    let u := supplyT (fun r => { r with state := .runOut, time := some 0 })
    let s : State := { u with
      start := { u.start with settings := { cfgT with railStation := 80 } }
      frame := { u.frame with claim := { Claim.madeAt 0 (.position 3) with state := .queued, position := some 3 } } }
    let s' := run1 (.hello 0 80 3 0 true) s
    s.cfg.dofferStation = s.cfg.railStation ∧ s'.frame.claim = Claim.madeAt 1000000000 (.position 3) ∧
      s'.line.urgent.map (fun n => (n.kind, n.dst, n.payload.map (fun b => b.toNat))) =
        [(some .doffClaim, 80, [17, 4, 1, 2, 253, 0, 48, 1, 3]),
         (some .rovingAsk, 80, [17, 128, 0, 0, 0, 0, 0, 0, 0]), (some .hello, 255, [17, 1, 4])] := by decide +kernel

theorem witness_LineTimersAndStartMark :
    base.underWay ∧ (base.start.phase = .active ∧ { base.line with ownHold := some 1000000 }.ownHold = some 1000000 ∧
        1000000 ≤ max base.clock 0 / 1000 ∧ max base.clock 0 / 1000 < 1000001) ∧
      (base.line.isolationStart + 60000000 ≤ max base.clock 1059000000 ∧
        max base.clock 1058999999 < base.line.isolationStart + 60000000) ∧
      (base.transmits = false ∧
        ({ base with line := { base.line with
          flight := some ⟨base.notice .tally 230 1 [], 1, .sending 0⟩ } } : State).transmits = true) :=
  ⟨base_underWay, by decide +kernel⟩

theorem witness_CommandsLeaveOtherUnitsAlone :
    (∃ s', exec (.rovingAck 0 90 1 []) base = .next s') ∧
      (begins (.rovingAck 0 90 1 []) = false ∧ movesPins (.rovingAck 0 90 1 []) = false ∧
        movesChain (.rovingAck 0 90 1 []) = false ∧ movesDrive (.rovingAck 0 90 1 []) = false ∧
        movesFrame (.rovingAck 0 90 1 []) = false ∧ movesTable (.rovingAck 0 90 1 []) = false ∧
        movesPieces (.rovingAck 0 90 1 []) = false ∧ quiet (.rovingAck 0 90 1 []) = true) ∧
      silent (.pwmPeriodStart 0) = true ∧ movesRoving (.take 0 61 305 5) = false :=
  ⟨⟨_, rfl⟩, by decide +kernel⟩

/-- `base` with a command that waits. -/
def waiting : State := { base with pending := [.updateTick 1000000000] }

theorem waiting_steps : ∃ s', step waiting = .next s' := ⟨_, rfl⟩

theorem waiting_spindle (n : Nat) (r : SpindleRec) (h : waiting.spindle n = some r) : r = SpindleRec.fresh 0 := by
  have hm : r ∈ List.replicate 48 (SpindleRec.fresh 0) := by
    unfold State.spindle at h
    split at h
    · cases h
    · exact List.mem_of_getElem? h
  exact List.eq_of_mem_replicate hm

theorem waiting_frameSound : waiting.frameSound := fun _ => by
  unfold State.driveInRange State.timersOwned State.trimSound State.modeSound
  decide +kernel

theorem witness_BoundsAndCountsAreKept :
    waiting.withinBounds ∧ waiting.countsInRange ∧ ∃ s', step waiting = .next s' := by
  refine ⟨?_, ?_, waiting_steps⟩
  · unfold State.withinBounds State.outboundBounded State.inboundBounded State.peersBounded State.ringBounded
      State.historiesBounded
    decide +kernel
  · unfold State.countsInRange OpenShift.inRange FrameCounts.inRange SideCounts.inRange
    decide +kernel

theorem witness_FrameSoundnessIsKept : waiting.frameSound ∧ waiting.underWay ∧ ∃ s', step waiting = .next s' :=
  ⟨waiting_frameSound, Or.inr rfl, waiting_steps⟩

theorem witness_TableSoundnessIsKept :
    waiting.frameSound ∧ waiting.tableSound ∧ ∃ s', step waiting = .next s' := by
  refine ⟨waiting_frameSound, ⟨⟨by decide +kernel, by decide +kernel⟩, fun _ => ⟨?_, ⟨?_, ?_⟩, ⟨?_, ?_, ?_, ?_⟩, ?_⟩⟩,
    waiting_steps⟩
  · intro n r h
    rw [waiting_spindle n r h]
    unfold SpindleRec.fieldsSound
    decide +kernel
  · decide +kernel
  · intro n
    refine ⟨fun h => ?_, fun ⟨r, h, hl⟩ => ?_⟩
    · cases h
    · rw [waiting_spindle n r h] at hl
      unfold SpindleState.listed at hl
      exact absurd hl (by decide +kernel)
  · decide +kernel
  · decide +kernel
  · intro c h
    cases h
  · intro n r h k hk
    rw [waiting_spindle n r h] at hk
    cases hk
  · intro h
    cases h

end Sys2Proof.Tests
end

section
/-! What POWER_ON, SUPPLY_LOST and FRAME_MINUTE make of the state (R14, R195, R199). -/

namespace Sys2Proof.Machine

/-! ## Cold values (R195, R198) -/

/-- A state that holds its cold values has nothing in volatile memory to lose: the assertion of the reset pin moves the
phase and the kind of the next start alone (R196, log 39). -/
theorem loseVolatile_coldState (s : State) (phase : Phase) (strap : Nat) :
    (s.coldState phase strap).loseVolatile =
      { s.coldState phase strap with
        start := { (s.coldState phase strap).start with phase := .inReset, fresh := false } } := rfl

/-- R195: POWER_ON with the reset pin released begins a cold start. -/
theorem execPowerOn_released {s : State} (strap : Nat) (h : s.pins.reset = false) :
    execPowerOn strap s = .next (s.coldState .reading strap) := by
  simp [execPowerOn, h]

/-- R196: POWER_ON with the reset pin asserted leaves the part in reset with its cold values (log 39). -/
theorem execPowerOn_asserted {s : State} (strap : Nat) (h : s.pins.reset = true) :
    execPowerOn strap s = .next
      { s.coldState .reading strap with
        start := { (s.coldState .reading strap).start with phase := .inReset, fresh := false } } := by
  simp only [execPowerOn, h, if_true, loseVolatile_coldState]

/-- Settles O2: the two commands write `coldState`, whose fields are the values listed. -/
theorem powerOnAndSupplyLossGiveColdValues : Obligations.PowerOnAndSupplyLossGiveColdValues := by
  unfold Obligations.PowerOnAndSupplyLossGiveColdValues
  refine ⟨?powerOn, ?supplyLost, ?chain, ?drive, ?frame, ?line, ?whole⟩
  case powerOn =>
    rintro strap s cold rfl
    exact ⟨execPowerOn_released strap, execPowerOn_asserted strap⟩
  case supplyLost => exact fun _ => rfl
  case chain =>
    rintro a b outA outB side rfl
    rfl
  case drive => exact fun _ _ => rfl
  case frame =>
    rintro idle rfl
    exact ⟨rfl, rfl⟩
  case line => exact fun _ _ => rfl
  case whole => rfl

/-! ## The frame minute (R14, R97, R99, R135, R199) -/

theorem exec_frameMinute (t : Nat) (s : State) : exec (.frameMinute t) s = execFrameMinute t s := rfl

theorem clockRuns_of_underWay {s : State} (h : s.underWay) : s.clockRuns = true :=
  h.elim clockRuns_of_listening clockRuns_of_active

theorem reach_of_underWay {s : State} (t : Nat) (h : s.underWay) : s.reach t = s.later t :=
  reach_of_runs t (clockRuns_of_underWay h)

/-- A frame minute that is due from the listening period on begins, and its counts are raised. -/
theorem execFrameMinute_due {s : State} (t : Nat) (h : s.underWay) (due : s.minutesBegun < max s.clock t / 60000000) :
    execFrameMinute t s = .next ((s.later t).withMinutesBegun (s.minutesBegun + 1)).minuteCounts := by
  have runs : (s.later t).clockRuns = true := clockRuns_of_underWay h
  have begins : s.minutesBegun < (s.later t).minute := due
  have listens : ((s.later t).withMinutesBegun (s.minutesBegun + 1)).listens = true := listens_iff.mpr h
  simp [execFrameMinute, reach_of_underWay t h, runs, begins, listens]

/-- Settles O12: the minute's counts are raised by `minuteCounts`, each saturating at its field maximum. -/
theorem frameMinuteRaisesCounts : Obligations.FrameMinuteRaisesCounts := by
  intro t s h due
  rw [exec_frameMinute, execFrameMinute_due t h due]
  simp only [State.minuteCounts, raise, saturate, beq_iff_eq]
  rfl

end Sys2Proof.Machine
end

section
/-! The chain engine between passes: the choice of the next pass and its start (R3, R7, R18), the end of a drive pass
(R4), a scan timer's expiry (R5) and a module frame (R8). -/

namespace Sys2Proof.Machine

/-! ## The record of a side -/

section

variable (c : ChainUnit) (side other : Side) (v : SideChain)

@[simp] theorem side_withSide : (c.withSide side v).side other = if other = side then v else c.side other := by
  cases side <;> cases other <;> rfl

@[simp] theorem withSide_queue : (c.withSide side v).queue = c.queue := by cases side <;> rfl
@[simp] theorem withSide_flight : (c.withSide side v).flight = c.flight := by cases side <;> rfl
@[simp] theorem withSide_lastServed : (c.withSide side v).lastServed = c.lastServed := by cases side <;> rfl
@[simp] theorem withSide_readings : (c.withSide side v).readings = c.readings := by cases side <;> rfl

end

/-! ## The choice of the next pass (R7) -/

theorem side_eq_otherSide (side last : Side) : side = otherSide last ↔ side ≠ last := by
  cases side <;> cases last <;> decide

@[simp] theorem choosePass_nil (last : Side) : choosePass [] last = none := rfl

/-- A pass of the side not served last goes first among those of its side, whatever waits ahead of it. -/
theorem choosePass_other {last : Side} {ahead : List Pass} {p : Pass} (behind : List Pass) (hp : p.side ≠ last)
    (ha : ∀ a ∈ ahead, a.side = last) : choosePass (ahead ++ p :: behind) last = some p := by
  have skipped : ahead.find? (fun q => q.side == otherSide last) = none :=
    List.find?_eq_none.mpr fun a h => by simp [side_eq_otherSide, ha a h]
  have taken : (p.side == otherSide last) = true := by simpa [side_eq_otherSide] using hp
  simp [choosePass, List.find?_append, skipped, taken]

/-- With no pass of the other side waiting, the earliest is taken. -/
theorem choosePass_same {last : Side} {queue : List Pass} (h : ∀ a ∈ queue, a.side = last) :
    choosePass queue last = queue.head? := by
  have none : queue.find? (fun q => q.side == otherSide last) = none :=
    List.find?_eq_none.mpr fun a ha => by simp [side_eq_otherSide, h a ha]
  simp [choosePass, none]

@[simp] theorem choosePass_singleton (p : Pass) (last : Side) : choosePass [p] last = some p := by
  by_cases h : p.side = last
  · exact choosePass_same (by simpa using h)
  · exact choosePass_other (ahead := []) [] h (by simp)

/-- The engine takes a pass whenever one waits. -/
theorem choosePass_isSome {queue : List Pass} (last : Side) (h : queue ≠ []) :
    ∃ p, choosePass queue last = some p := by
  unfold choosePass
  split
  · exact ⟨_, rfl⟩
  · exact ⟨queue.head h, List.head?_eq_some_head h⟩

/-! ## The start of a pass (R3, R7, R18) -/

theorem startPass_begun (s : State) (p : Pass) : s.startPass p = s.begun p := by
  rcases p with ⟨side, kind⟩
  cases kind <;> cases side <;> rfl

theorem nextPass_begun {s : State} {p : Pass} (idle : s.chain.flight = none)
    (chosen : choosePass s.chain.queue s.chain.lastServed = some p) : s.nextPass = s.begun p := by
  simp [State.nextPass, idle, chosen, startPass_begun]

theorem nextPass_idle {s : State} (none : choosePass s.chain.queue s.chain.lastServed = none) : s.nextPass = s := by
  unfold State.nextPass
  split <;> simp [none]

theorem nextPass_busy {s : State} {f : PassFlight} (h : s.chain.flight = some f) : s.nextPass = s := by
  simp [State.nextPass, h]

/-- The record of a side as a pass begins: of the side of a sense pass, the moment of the load pulse changes (R3). -/
theorem begun_side (s : State) (p : Pass) (side : Side) :
    (s.begun p).chain.side side =
      { s.chain.side side with
        loadedAt := if side = p.side ∧ p.kind = .sense then some s.clock else (s.chain.side side).loadedAt } := by
  rcases p with ⟨pside, kind⟩
  cases kind <;> cases pside <;> cases side <;> rfl

@[simp] theorem begun_readings (s : State) (p : Pass) : (s.begun p).chain.readings = s.chain.readings := by
  rcases p with ⟨side, kind⟩
  cases side <;> rfl

theorem begun_flight (s : State) (p : Pass) :
    (s.begun p).chain.flight = some
      { pass := p, since := s.clock, frames := [],
        bits := if p.kind = .drive then (s.spindlesOf p.side).filterMap (fun n =>
          (s.spindle n).map (fun r => driveBitsOf r.state (s.clock / 1000))) else [] } := rfl

/-- The engine's next pass leaves what the modules hold as it stands. -/
theorem nextPass_outputs (s : State) (side : Side) :
    (s.nextPass.chain.side side).outputs = (s.chain.side side).outputs := by
  cases idle : s.chain.flight with
  | some f => rw [nextPass_busy idle]
  | none =>
    cases chosen : choosePass s.chain.queue s.chain.lastServed with
    | none => rw [nextPass_idle chosen]
    | some p => rw [nextPass_begun idle chosen, begun_side]

/-! ## The end of a drive pass (R4, R18) -/

theorem exec_drivePassEnd (t : Nat) (s : State) : exec (.drivePassEnd t) s = execDrivePassEnd t s := rfl

/-- A drive pass that has lasted its bits ends. -/
theorem execDrivePassEnd_due {s : State} {f : PassFlight} (t : Nat) (active : s.start.phase = .active)
    (flight : s.chain.flight = some f) (kind : f.pass.kind = .drive)
    (lasted : f.since + 16 * s.modulesOf f.pass.side * s.chainPeriod ≤ max s.clock t) :
    execDrivePassEnd t s = .next ((s.later t).driveEnds f) := by
  have complete : (s.later t).flightLasted f ((s.later t).passBits f.pass) = true := by
    simp only [State.flightLasted, State.passBits, kind]
    exact decide_eq_true lasted
  simp [execDrivePassEnd, whileActive_later t _ active, flight, kind, complete]

/-- The state at the end of a drive pass, before the next one starts: the latch pulses at this moment, the modules take
the bits sent, and the engine is idle (R4). -/
def State.latched (s : State) (f : PassFlight) : State :=
  { s with chain := { s.chain.withSide f.pass.side
      { s.chain.side f.pass.side with latchedAt := some s.clock, outputs := f.bits } with flight := none } }

theorem driveEnds_eq (s : State) (f : PassFlight) : s.driveEnds f = (s.latched f).nextPass := rfl

@[simp] theorem latched_queue (s : State) (f : PassFlight) : (s.latched f).chain.queue = s.chain.queue :=
  withSide_queue ..

@[simp] theorem latched_lastServed (s : State) (f : PassFlight) :
    (s.latched f).chain.lastServed = s.chain.lastServed :=
  withSide_lastServed ..

/-- A drive pass that the end of another starts carries the bits of the spindle states at that moment (R18). -/
theorem driveEnds_bits {s : State} {f g : PassFlight} (flight : (s.driveEnds f).chain.flight = some g)
    (kind : g.pass.kind = .drive) :
    g.bits = (s.spindlesOf g.pass.side).filterMap (fun n =>
      (s.spindle n).map (fun r => driveBitsOf r.state (s.clock / 1000))) := by
  rw [driveEnds_eq] at flight
  cases chosen : choosePass (s.latched f).chain.queue (s.latched f).chain.lastServed with
  | none =>
    rw [nextPass_idle chosen] at flight
    cases flight
  | some p =>
    rw [nextPass_begun rfl chosen, begun_flight] at flight
    cases flight
    exact if_pos kind

/-- Settles O18: lamps and clamps by state, and the end of a drive pass by `driveEnds`. -/
theorem drivePassSetsLampsAndClamps : Obligations.DrivePassSetsLampsAndClamps := by
  refine ⟨fun ms => ⟨rfl, rfl, rfl, rfl, rfl, rfl, rfl⟩, fun t s f active flight kind lasted => ?_⟩
  have ends := execDrivePassEnd_due t active flight kind lasted
  refine ⟨⟨(s.later t).driveEnds f, ends, ?outputs, ?next, ?bits, by simp, by simp, by simp⟩, ?idle⟩
  case outputs =>
    rw [driveEnds_eq, nextPass_outputs]
    exact congrArg SideChain.outputs ((side_withSide ..).trans (if_pos rfl))
  case next =>
    rintro latched ended rfl rfl p chosen
    exact nextPass_begun (s := (s.later t).latched f) rfl (by simpa using chosen)
  case bits => exact fun g => driveEnds_bits
  case idle =>
    intro empty
    rw [exec_drivePassEnd, ends, driveEnds_eq, nextPass_idle (by simp [empty])]
    rfl

/-! ## A scan timer's expiry (R5) -/

theorem exec_scanTimerExpiry (t : Nat) (side : Side) (s : State) :
    exec (.scanTimerExpiry t side) s = execScanTimerExpiry t side s := rfl

theorem execScanTimerExpiry_due {s : State} {side : Side} {due : Nat} (t : Nat) (active : s.start.phase = .active)
    (timer : (s.chain.side side).scanDue = some due) (reached : due ≤ max s.clock t) :
    execScanTimerExpiry t side s = .next ((s.later t).scanExpires side due) := by
  simp [execScanTimerExpiry, whileActive_later t _ active, timer, reached]

/-- A side's scan timer has restarted after an expiry (R5). -/
def State.rescanned (s : State) (side : Side) (due : Nat) : State :=
  s.withChain (s.chain.withSide side
    { s.chain.side side with scanDue := some (due + 1000 * s.cfg.scanInterval) })

theorem sensePending_iff (s : State) (side : Side) :
    s.sensePending side = true ↔
      ⟨side, .sense⟩ ∈ s.chain.queue ∨ ∃ f, s.chain.flight = some f ∧ f.pass = ⟨side, .sense⟩ := by
  unfold State.sensePending
  cases s.chain.flight <;> simp

theorem sensePending_rescanned (s : State) (side : Side) (due : Nat) :
    (s.rescanned side due).sensePending side = s.sensePending side := by
  simp [State.sensePending, State.rescanned]

/-- R5: everything a scan timer's expiry can do: a late scan is counted, or a sense pass joins the queue. -/
theorem scanExpires_eq (s : State) (side : Side) (due : Nat) :
    s.scanExpires side due =
      if s.sensePending side = true then (s.rescanned side due).lateScan
      else (s.rescanned side due).joinPass ⟨side, .sense⟩ := by
  rw [← sensePending_rescanned s side due]
  rfl

theorem joinPass_busy {s : State} {f : PassFlight} (p : Pass) (h : s.chain.flight = some f) :
    s.joinPass p = s.withChain { s.chain with queue := s.chain.queue ++ [p] } :=
  nextPass_busy (s := s.withChain { s.chain with queue := s.chain.queue ++ [p] }) h

/-- A pass that joins the empty queue of an idle engine starts at once. -/
theorem joinPass_idle {s : State} (p : Pass) (idle : s.chain.flight = none) (empty : s.chain.queue = []) :
    s.joinPass p = (s.withChain { s.chain with queue := [p] }).begun p := by
  unfold State.joinPass
  rw [empty]
  exact nextPass_begun idle (choosePass_singleton ..)

/-! ## A module frame (R8) -/

theorem exec_moduleFrameReceived (t : Nat) (bits : BitVec 9) (s : State) :
    exec (.moduleFrameReceived t bits) s = execModuleFrameReceived t bits s := rfl

theorem execModuleFrameReceived_due {s : State} {f : PassFlight} (t : Nat) (bits : BitVec 9)
    (active : s.start.phase = .active) (flight : s.chain.flight = some f) (kind : f.pass.kind = .sense)
    (few : f.frames.length < s.modulesOf f.pass.side)
    (lasted : f.since + 9 * (f.frames.length + 1) * s.chainPeriod ≤ max s.clock t) :
    execModuleFrameReceived t bits s = .next
      { s.later t with
        chain := { s.chain with flight := some { f with frames := f.frames ++ [pendingOf bits] } } } := by
  have more : f.frames.length < (s.later t).modulesOf f.pass.side := few
  have complete : (s.later t).flightLasted f (9 * (f.frames.length + 1)) = true := decide_eq_true lasted
  simp only [execModuleFrameReceived, whileActive_later t _ active, later_chain, flight, kind, more, complete,
    beq_self_eq_true, decide_true, Bool.and_self, if_true]
  rfl

/-- Settles O13: the branches of `scanExpires`, the engine's choice, and the pending frame of nine bits. -/
theorem scanExpiriesAndModuleFrames : Obligations.ScanExpiriesAndModuleFrames := by
  refine ⟨?expiry, ?choice, ?frame⟩
  case expiry =>
    rintro t side s due active timer reached _ rfl
    rw [exec_scanTimerExpiry, execScanTimerExpiry_due t active timer reached, scanExpires_eq]
    refine ⟨fun pending => ?late, fun waits flies => ⟨fun f flight => ?joins, fun idle empty => ?starts⟩⟩
    case late =>
      rw [if_pos ((sensePending_iff (s.later t) side).mpr pending)]
      rfl
    all_goals
      have free : ¬(s.later t).sensePending side = true := fun pending =>
        ((sensePending_iff (s.later t) side).mp pending).elim waits fun ⟨f, flight, pass⟩ => flies f flight pass
      rw [if_neg free]
    case joins =>
      have busy : ((s.later t).rescanned side due).chain.flight = some f := by simpa [State.rescanned] using flight
      rw [joinPass_busy _ busy]
      simp only [State.rescanned, withChain_chain, withSide_queue]
      rfl
    case starts =>
      rintro _ rfl
      have idle' : ((s.later t).rescanned side due).chain.flight = none := by simpa [State.rescanned] using idle
      have empty' : ((s.later t).rescanned side due).chain.queue = [] := by simpa [State.rescanned] using empty
      rw [joinPass_idle _ idle' empty']
      cases side <;> rfl
  case choice =>
    intro last queue
    refine ⟨?_, ?_, ?_⟩
    · rintro rfl
      exact choosePass_nil last
    · rintro ahead p behind rfl hp ha
      exact choosePass_other behind hp ha
    · rintro p behind rfl h
      exact choosePass_same h
  case frame =>
    intro t bits s f active flight kind few lasted
    rw [exec_moduleFrameReceived, execModuleFrameReceived_due t bits active flight kind few lasted]
    rfl

end Sys2Proof.Machine
end

section
/-! The end of a sense pass: what the fold over its modules makes of every module's record and of the last readings
(R9 to R13), the pass that follows (R6, R7), and a pass that finds the detect condition not holding (R15). -/

namespace Sys2Proof.Machine

/-! ## One module of a pass (R10 to R12) -/

/-- The record of a module as a pass leaves it. -/
def ModuleRec.judged (old : ModuleRec) (good : Bool) : ModuleRec := if good then old.good else old.bad

/-- R10 to R12: how a good pass moves suspect count, recovery count and blindness. -/
theorem judged_good (old : ModuleRec) :
    (old.judged true).suspect = 0 ∧
      (if old.blind = true then
        (if old.recovery + 1 < 8 then (old.judged true).blind = true ∧ (old.judged true).recovery = old.recovery + 1
         else (old.judged true).blind = false ∧ (old.judged true).recovery = 0)
       else (old.judged true).blind = false) := by
  rcases old with ⟨suspect, recovery, blind⟩
  cases blind with
  | false => simp [ModuleRec.judged, ModuleRec.good]
  | true => by_cases few : recovery + 1 < 8 <;> simp [ModuleRec.judged, ModuleRec.good, few]

/-- R10, R11: how a bad pass moves them. -/
theorem judged_bad (old : ModuleRec) :
    (old.judged false).suspect = min 3 (old.suspect + 1) ∧ (old.judged false).recovery = 0 ∧
      ((old.judged false).blind = true ↔ old.blind = true ∨ 3 ≤ old.suspect + 1) := by
  simp [ModuleRec.judged, ModuleRec.bad]

/-- Of the chain engine, a module of a pass moves its own record and, when good, its last readings. -/
theorem applyModule_chain (s : State) (side : Side) (detect : Bool) (m : Nat) (good : Bool) (yarn : List Bool) :
    (s.applyModule side detect m good yarn).chain =
      if good = true then (s.moduleRead side m (s.moduleRec side m).good yarn).chain
      else (s.moduleSet side m (s.moduleRec side m).bad).chain := by
  cases good with
  | false =>
    rw [applyModule_bad]
    split
    · rw [(blindModule_frame ..).2.2.2.2.2.2.1]
      rfl
    · rfl
  | true =>
    rw [applyModule_good, if_pos rfl]
    dsimp only
    repeat' split
    all_goals simp

theorem moduleSet_side (s : State) (side : Side) (m : Nat) (v : ModuleRec) :
    (s.moduleSet side m v).chain.side side =
      { s.chain.side side with modules := (s.chain.side side).modules.set (m - 1) v } := by
  cases side <;> rfl

theorem moduleRead_side (s : State) (side : Side) (m : Nat) (v : ModuleRec) (yarn : List Bool) :
    (s.moduleRead side m v yarn).chain.side side =
      { s.chain.side side with modules := (s.chain.side side).modules.set (m - 1) v } := by
  cases side <;> rfl

theorem applyModule_side (s : State) (side : Side) (detect : Bool) (m : Nat) (good : Bool) (yarn : List Bool) :
    (s.applyModule side detect m good yarn).chain.side side =
      { s.chain.side side with
        modules := (s.chain.side side).modules.set (m - 1) ((s.moduleRec side m).judged good) } := by
  rw [applyModule_chain]
  cases good with
  | false => exact moduleSet_side ..
  | true => exact moduleRead_side ..

/-- Module m of the pass is judged, and no other. -/
theorem applyModule_modules (s : State) (side : Side) (detect : Bool) (m k : Nat) (good : Bool) (yarn : List Bool) :
    ((s.applyModule side detect (m + 1) good yarn).chain.side side).modules[k]? =
      if k = m then ((s.chain.side side).modules[k]?).map (fun old => old.judged good)
      else (s.chain.side side).modules[k]? := by
  rw [applyModule_side, Nat.add_sub_cancel, List.getElem?_set']
  by_cases h : k = m
  · subst h
    simp only [if_true, State.moduleRec, Nat.add_sub_cancel, List.getD_eq_getElem?_getD]
    cases (s.chain.side side).modules[k]? <;> rfl
  · rw [if_neg (Ne.symm h), if_neg h]

/-- The last readings move in the eight places of a good module. -/
theorem applyModule_readings (s : State) (side : Side) (detect : Bool) (m : Nat) (good : Bool) (yarn : List Bool)
    (i : Nat) :
    (s.applyModule side detect (m + 1) good yarn).chain.readings[i]? =
      if good = true ∧ s.sideBase side + 8 * m ≤ i ∧ i < s.sideBase side + 8 * m + 8 then
        (s.chain.readings[i]?).map (fun old => yarn.getD (i - (s.sideBase side + 8 * m)) old)
      else s.chain.readings[i]? := by
  rw [applyModule_chain]
  cases good with
  | false =>
    have kept : (s.moduleSet side (m + 1) (s.moduleRec side (m + 1)).bad).chain.readings = s.chain.readings :=
      withSide_readings ..
    simp [kept]
  | true =>
    simp only [if_true, State.moduleRead, Nat.add_sub_cancel, List.getElem?_mapIdx, true_and]
    split
    · rfl
    · exact Option.map_id' ..

theorem applyModule_readings_elsewhere (s : State) (side : Side) (detect : Bool) (m : Nat) (good : Bool)
    (yarn : List Bool) {i : Nat} (h : i < s.sideBase side + 8 * m ∨ s.sideBase side + 8 * m + 8 ≤ i) :
    (s.applyModule side detect (m + 1) good yarn).chain.readings[i]? = s.chain.readings[i]? := by
  rw [applyModule_readings, if_neg]
  rintro ⟨_, low, high⟩
  omega

/-! ## The modules of a pass in their order (R9) -/

theorem sideBase_of_start {u v : State} (h : u.start = v.start) (side : Side) : u.sideBase side = v.sideBase side := by
  simp only [State.sideBase, State.spindlesA, State.cfg, h]

@[simp] theorem applyModule_sideBase (s : State) (side : Side) (detect : Bool) (m : Nat) (good : Bool)
    (yarn : List Bool) : (s.applyModule side detect m good yarn).sideBase side = s.sideBase side :=
  sideBase_of_start (by simp) side

section

variable (side : Side) (detect matched : Bool)

@[simp] theorem applyModules_trailerMissing (frames : List PendingFrame) (m : Nat) (s : State) :
    ((s.applyModules side detect matched m frames).chain.side side).trailerMissing =
      (s.chain.side side).trailerMissing := by
  rw [applyModules_eq]
  exact foldl_keeps (fun u : State => (u.chain.side side).trailerMissing) _ (fun u p => by rw [applyModule_side]) _ _

@[simp] theorem applyModules_length (frames : List PendingFrame) (m : Nat) (s : State) :
    ((s.applyModules side detect matched m frames).chain.side side).modules.length =
      (s.chain.side side).modules.length := by
  rw [applyModules_eq]
  exact foldl_keeps (fun u : State => (u.chain.side side).modules.length) _
    (fun u p => by rw [applyModule_side]; exact List.length_set) _ _

/-- Every module of the pass is judged once, by its own frame; those ahead of the frames stand. -/
theorem applyModules_modules (frames : List PendingFrame) : ∀ (m : Nat) (s : State),
    (∀ k, k < m → ((s.applyModules side detect matched (m + 1) frames).chain.side side).modules[k]? =
      (s.chain.side side).modules[k]?) ∧
    ∀ k frame, frames[k]? = some frame →
      ((s.applyModules side detect matched (m + 1) frames).chain.side side).modules[m + k]? =
        ((s.chain.side side).modules[m + k]?).map (fun old => old.judged (matched && frame.passing)) := by
  induction frames with
  | nil => exact fun m s => ⟨fun _ _ => rfl, nofun⟩
  | cons f frames ih =>
    intro m s
    rw [State.applyModules]
    obtain ⟨ahead, own⟩ := ih (m + 1) (s.applyModule side detect (m + 1) (matched && f.passing) f.yarn)
    refine ⟨fun k hk => ?_, fun k frame hf => ?_⟩
    · rw [ahead k (by omega), applyModule_modules, if_neg (by omega)]
    · cases k with
      | zero =>
        cases hf
        exact (ahead m (by omega)).trans ((applyModule_modules ..).trans (if_pos rfl))
      | succ k =>
        have later := own k frame hf
        rw [show m + 1 + k = m + (k + 1) by omega] at later
        rw [later, applyModule_modules, if_neg (by omega)]

/-- R10: the eight places of every good module of the pass take its frame's readings; those of a bad one stand, as do
the places ahead of the frames. -/
theorem applyModules_readings (frames : List PendingFrame) : ∀ (m : Nat) (s : State),
    (∀ i, i < s.sideBase side + 8 * m →
      (s.applyModules side detect matched (m + 1) frames).chain.readings[i]? = s.chain.readings[i]?) ∧
    ∀ k q i frame, frames[k]? = some frame → q < 8 → i = s.sideBase side + 8 * (m + k) + q →
      (s.applyModules side detect matched (m + 1) frames).chain.readings[i]? =
        if (matched && frame.passing) = true then (s.chain.readings[i]?).map (fun old => frame.yarn.getD q old)
        else s.chain.readings[i]? := by
  induction frames with
  | nil => exact fun m s => ⟨fun _ _ => rfl, nofun⟩
  | cons f frames ih =>
    intro m s
    rw [State.applyModules]
    obtain ⟨ahead, own⟩ := ih (m + 1) (s.applyModule side detect (m + 1) (matched && f.passing) f.yarn)
    simp only [applyModule_sideBase] at ahead own
    refine ⟨fun i hi => ?_, fun k q i frame hf hq hi => ?_⟩
    · rw [ahead i (by omega), applyModule_readings_elsewhere _ _ _ _ _ _ (by omega)]
    · cases k with
      | zero =>
        cases hf
        rw [ahead i (by omega), applyModule_readings, show i - (s.sideBase side + 8 * m) = q by omega]
        have here : s.sideBase side + 8 * m ≤ i ∧ i < s.sideBase side + 8 * m + 8 := by omega
        exact ite_congr (propext (and_iff_left here)) (fun _ => rfl) (fun _ => rfl)
      | succ k =>
        rw [own k q i frame hf hq (by omega), applyModule_readings_elsewhere _ _ _ _ _ _ (by omega)]

end

/-! ## A whole pass (R9, R13, R15) -/

/-- The state on which the modules of a pass are applied: the trailer counted, and the run counters of the side at 0
where the detect condition does not hold. -/
def State.trailed (s : State) (side : Side) (matched : Bool) : State :=
  let counted := s.withChain (s.chain.withSide side
    { s.chain.side side with trailerMissing := trailerCount (s.chain.side side).trailerMissing matched })
  if s.detects then counted else counted.runsCleared (s.spindlesOf side)

theorem applyPass_trailed (s : State) (side : Side) (frames : List PendingFrame) (matched : Bool) :
    s.applyPass side frames matched = (s.trailed side matched).applyModules side s.detects matched 1 frames := by
  unfold State.applyPass State.trailed
  simp only [clearRuns_eq]
  rfl

theorem trailed_chain (s : State) (side : Side) (matched : Bool) :
    (s.trailed side matched).chain = s.chain.withSide side
      { s.chain.side side with trailerMissing := trailerCount (s.chain.side side).trailerMissing matched } := by
  unfold State.trailed
  dsimp only
  split <;> rfl

theorem trailed_start (s : State) (side : Side) (matched : Bool) : (s.trailed side matched).start = s.start := by
  unfold State.trailed
  dsimp only
  split <;> rfl

theorem trailed_side (s : State) (side : Side) (matched : Bool) :
    (s.trailed side matched).chain.side side =
      { s.chain.side side with trailerMissing := trailerCount (s.chain.side side).trailerMissing matched } := by
  rw [trailed_chain, side_withSide, if_pos rfl]

theorem applyPass_trailerMissing (s : State) (side : Side) (frames : List PendingFrame) (matched : Bool) :
    ((s.applyPass side frames matched).chain.side side).trailerMissing =
      trailerCount (s.chain.side side).trailerMissing matched := by
  rw [applyPass_trailed, applyModules_trailerMissing, trailed_side]

theorem applyPass_length (s : State) (side : Side) (frames : List PendingFrame) (matched : Bool) :
    ((s.applyPass side frames matched).chain.side side).modules.length = (s.chain.side side).modules.length := by
  rw [applyPass_trailed, applyModules_length, trailed_side]

theorem applyPass_modules (s : State) (side : Side) {frames : List PendingFrame} (matched : Bool) {k : Nat}
    {frame : PendingFrame} (hf : frames[k]? = some frame) :
    ((s.applyPass side frames matched).chain.side side).modules[k]? =
      ((s.chain.side side).modules[k]?).map (fun old => old.judged (matched && frame.passing)) := by
  have own := (applyModules_modules side s.detects matched frames 0 (s.trailed side matched)).2 k frame hf
  simp only [Nat.zero_add, trailed_side] at own
  rw [applyPass_trailed, own]

theorem applyPass_readings (s : State) (side : Side) {frames : List PendingFrame} (matched : Bool) {k q : Nat}
    {frame : PendingFrame} (hf : frames[k]? = some frame) (hq : q < 8) :
    (s.applyPass side frames matched).chain.readings[s.sideBase side + 8 * k + q]? =
      if (matched && frame.passing) = true then
        (s.chain.readings[s.sideBase side + 8 * k + q]?).map (fun old => frame.yarn.getD q old)
      else s.chain.readings[s.sideBase side + 8 * k + q]? := by
  have base := sideBase_of_start (trailed_start s side matched) side
  have own := (applyModules_readings side s.detects matched frames 0 (s.trailed side matched)).2 k q
    (s.sideBase side + 8 * k + q) frame hf hq (by rw [base, Nat.zero_add])
  rw [trailed_chain, withSide_readings] at own
  rw [applyPass_trailed, own]

/-! ## The end of a sense pass (R6, R7, R9) -/

theorem execSensePassEnd_due {s : State} {f : PassFlight} (t : Nat) (trailer : BitVec 12)
    (active : s.start.phase = .active) (flight : s.chain.flight = some f) (kind : f.pass.kind = .sense)
    (whole : f.frames.length = s.modulesOf f.pass.side)
    (lasted : f.since + (9 * s.modulesOf f.pass.side + 12) * s.chainPeriod ≤ max s.clock t) :
    execSensePassEnd t trailer s = .next ((s.later t).senseEnds f trailer) := by
  have frames : f.frames.length = (s.later t).modulesOf f.pass.side := whole
  have complete : (s.later t).flightLasted f ((s.later t).passBits f.pass) = true := by
    simp only [State.flightLasted, State.passBits, kind]
    exact decide_eq_true lasted
  simp [execSensePassEnd, whileActive_later t _ active, flight, kind, frames, complete]

/-- The state with a sense pass applied, before the next pass starts: the engine is idle and the drive pass of the side
waits last (R6). -/
def State.sensed (s : State) (f : PassFlight) (trailer : BitVec 12) : State :=
  let s1 := s.applyPass f.pass.side f.frames (trailer == trailerPattern)
  { s1 with chain := { s1.chain with flight := none, queue := s1.chain.queue ++ [⟨f.pass.side, .drive⟩] } }

theorem senseEnds_eq (s : State) (f : PassFlight) (trailer : BitVec 12) :
    s.senseEnds f trailer = (s.sensed f trailer).nextPass := rfl

theorem sensed_side (s : State) (f : PassFlight) (trailer : BitVec 12) (side : Side) :
    (s.sensed f trailer).chain.side side =
      (s.applyPass f.pass.side f.frames (trailer == trailerPattern)).chain.side side := by
  cases side <;> rfl

theorem sensed_readings (s : State) (f : PassFlight) (trailer : BitVec 12) :
    (s.sensed f trailer).chain.readings =
      (s.applyPass f.pass.side f.frames (trailer == trailerPattern)).chain.readings := rfl

/-- At the end of a sense pass a pass always starts, since the drive pass of its side waits. -/
theorem senseEnds_begun (s : State) (f : PassFlight) (trailer : BitVec 12) :
    ∃ p, choosePass (s.sensed f trailer).chain.queue (s.sensed f trailer).chain.lastServed = some p ∧
      s.senseEnds f trailer = (s.sensed f trailer).begun p := by
  obtain ⟨p, chosen⟩ := choosePass_isSome (s.sensed f trailer).chain.lastServed
    (show (s.sensed f trailer).chain.queue ≠ [] from List.append_ne_nil_of_right_ne_nil _ (List.cons_ne_nil _ _))
  exact ⟨p, chosen, nextPass_begun rfl chosen⟩

/-- R6, R7: the drive pass of the side waits, or it is the pass that starts. -/
theorem begun_serves {s : State} {p q : Pass} (waits : q ∈ s.chain.queue) :
    q ∈ (s.begun p).chain.queue ∨
      ∃ g, (s.begun p).chain.flight = some g ∧ g.pass = q ∧ g.since = s.clock := by
  by_cases same : p = q
  · exact Or.inr ⟨_, begun_flight s p, same, rfl⟩
  · exact Or.inl ((List.mem_erase_of_ne (Ne.symm same)).mpr waits)

theorem senseEnds_side (s : State) (f : PassFlight) (trailer : BitVec 12) :
    ∃ loadedAt, (s.senseEnds f trailer).chain.side f.pass.side =
      { (s.applyPass f.pass.side f.frames (trailer == trailerPattern)).chain.side f.pass.side with
        loadedAt := loadedAt } := by
  obtain ⟨p, _, ends⟩ := senseEnds_begun s f trailer
  rw [ends, begun_side, sensed_side]
  exact ⟨_, rfl⟩

theorem senseEnds_readings (s : State) (f : PassFlight) (trailer : BitVec 12) :
    (s.senseEnds f trailer).chain.readings =
      (s.applyPass f.pass.side f.frames (trailer == trailerPattern)).chain.readings := by
  obtain ⟨p, _, ends⟩ := senseEnds_begun s f trailer
  rw [ends, begun_readings, sensed_readings]

/-- Settles O14: the fold over the modules, place by place, and the pass that follows. -/
theorem sensePassJudgesModules : Obligations.SensePassJudgesModules := by
  refine ⟨fun t trailer s f active flight kind whole modules lasted => ?_, fun s side frames matched counted h => ?_⟩
  · have ends := execSensePassEnd_due t trailer active flight kind whole lasted
    obtain ⟨p, chosen, begun⟩ := senseEnds_begun (s.later t) f trailer
    obtain ⟨loadedAt, own⟩ := senseEnds_side (s.later t) f trailer
    refine ⟨_, (s.later t).senseEnds f trailer, ends, rfl, ?next, ?count, ?length, ?judged, ?readings, ?drive,
      by simp, by simp, by simp, by simp, by simp⟩
    case next =>
      rintro joined rfl q hq
      exact nextPass_begun rfl hq
    case count =>
      rw [own]
      simp [applyPass_trailerMissing, trailerCount, trailerPattern]
    case length =>
      rw [own]
      simp [applyPass_length, modules]
    case judged =>
      intro k frame old new hf hold hnew
      rw [own] at hnew
      simp only [applyPass_modules _ _ _ hf, later_chain, hold, Option.map_some, Option.some.injEq] at hnew
      subst hnew
      by_cases good : trailer = 0b101001101001#12 ∧ frame.passing = true
      · have passed : (trailer == trailerPattern && frame.passing) = true := by simpa [trailerPattern] using good
        rw [if_pos good, passed]
        exact judged_good old
      · have failed : (trailer == trailerPattern && frame.passing) = false := by
          simpa [trailerPattern] using good
        rw [if_neg good, failed]
        exact judged_bad old
    case readings =>
      intro k q frame yarn hf hy hq inside
      have base : (s.later t).sideBase f.pass.side = s.sideBase f.pass.side := rfl
      have read := applyPass_readings (s.later t) f.pass.side (trailer == trailerPattern) hf hq
      rw [base, later_chain, List.getElem?_eq_getElem inside, Option.map_some, List.getD_eq_getElem?_getD, hy,
        Option.getD_some] at read
      rw [senseEnds_readings, read, List.getElem?_eq_getElem inside]
      have good : (trailer == trailerPattern && frame.passing) = true ↔
          trailer = 0b101001101001#12 ∧ frame.passing = true := by
        rw [Bool.and_eq_true, beq_iff_eq, trailerPattern]
      exact ite_congr (propext good) (fun _ => rfl) (fun _ => rfl)
    case drive =>
      rw [begun]
      have clock : ((s.later t).sensed f trailer).clock = max s.clock t := by simp [State.sensed]
      rw [← clock]
      exact begun_serves (by simp [State.sensed])
  · subst h
    exact applyPass_eq s side frames matched

end Sys2Proof.Machine
end

section
/-! The detect condition and debounce (R15 to R17), a pass that declares nothing, and the spindles of modules that go
blind or recover (R34, R35, R82). -/

namespace Sys2Proof.Machine

/-! ## The numbering of spindles (R22) -/

/-- A spindle that has a record bears one of the numbers from 1 on. -/
theorem spindle_range {s : State} {n : Nat} {r : SpindleRec} (h : s.spindle n = some r) :
    1 ≤ n ∧ n ≤ s.table.recs.length := by
  unfold State.spindle at h
  split at h
  · cases h
  · have := (List.getElem?_eq_some_iff.mp h).1
    omega

theorem mem_spindlesOf {s : State} {n : Nat} (side : Side) (low : 1 ≤ n) (high : n ≤ s.spindlesA + s.spindlesB) :
    n ∈ s.spindlesOf side ↔ s.sideOf n = side := by
  have numbered : n ∈ s.spindlesOf side ↔ s.sideBase side < n ∧ n ≤ s.sideBase side + s.sideSpindles side := by
    simp only [State.spindlesOf, List.mem_map, List.mem_range]
    constructor
    · rintro ⟨k, hk, rfl⟩
      omega
    · exact fun h => ⟨n - s.sideBase side - 1, by omega, by omega⟩
  rw [numbered, State.sideOf]
  cases side <;> simp only [State.sideBase, State.sideSpindles] <;> split <;> simp <;> omega

theorem spindle_runsCleared (s : State) (l : List Nat) (n : Nat) :
    (s.runsCleared l).spindle n = (s.spindle n).map (fun r => if n ∈ l then { r with run := 0 } else r) :=
  spindle_editSpindles s (fun n r => if n ∈ l then { r with run := 0 } else r) n

/-! ## A change of state (R17) -/

/-- R17: a change between two states neither of which is UP, or that both are, keeps the run counter. -/
theorem enter_within {r : SpindleRec} {new : SpindleState} (h : r.state = .up ↔ new = .up) :
    r.enter new = { r with state := new } := by
  have same : ((r.state == .up) == (new == .up)) = true := by
    rw [beq_iff_eq, Bool.eq_iff_iff, beq_iff_eq, beq_iff_eq]
    exact h
  rw [SpindleRec.enter, if_pos same]

/-- R17: a change from UP or to UP returns it to 0. -/
theorem enter_across {r : SpindleRec} {new : SpindleState} (h : ¬(r.state = .up ↔ new = .up)) :
    r.enter new = { r with state := new, run := 0 } := by
  have other : ¬((r.state == .up) == (new == .up)) = true := by
    rw [beq_iff_eq, Bool.eq_iff_iff, beq_iff_eq, beq_iff_eq]
    exact h
  rw [SpindleRec.enter, if_neg other]

/-! ## The detect condition (R15) -/

theorem detects_iff (s : State) :
    s.detects = true ↔ (s.frame.mode = .running ∨ s.frame.mode = .restart) ∧ s.drive.turning = true ∧
      ∃ m, s.chain.rollerBegan = some m ∧ m + 1000 * s.cfg.detectDelay ≤ s.clock / 1000 := by
  unfold State.detects calling State.nowMs
  cases s.chain.rollerBegan <;> simp [and_assoc]

/-! ## Debounce (R16) -/

/-- R16: the four rows of the debounce table. -/
theorem debounceRec_rows (c : Settings) (r : SpindleRec) :
    (r.state = .up → debounceRec c r true = ({ r with run := 0 }, none)) ∧
      (r.state = .up → r.run + 1 < c.kDown → debounceRec c r false = ({ r with run := r.run + 1 }, none)) ∧
      (r.state = .up → c.kDown ≤ r.run + 1 → debounceRec c r false = ({ r with run := 0 }, some false)) ∧
      ((r.state = .down ∨ r.state = .called ∨ r.state = .taken ∨ r.state = .runOut ∨ r.state = .locked) →
        debounceRec c r false = ({ r with run := 0 }, none) ∧
        (r.run + 1 < c.kUp → debounceRec c r true = ({ r with run := r.run + 1 }, none)) ∧
        (c.kUp ≤ r.run + 1 → debounceRec c r true = ({ r with run := 0 }, some true))) := by
  refine ⟨fun up => ?_, fun up few => ?_, fun up many => ?_, fun down => ?_⟩
  · simp [debounceRec, up]
  · simp [debounceRec, up, few]
  · simp [debounceRec, up, many]
  · have notUp : r.state ≠ .up := by rintro up; simp [up] at down
    have notHeld : r.state ≠ .held := by rintro held; simp [held] at down
    refine ⟨?_, fun few => ?_, fun many => ?_⟩
    · simp [debounceRec, notUp, notHeld]
    · simp [debounceRec, notUp, notHeld, few]
    · simp [debounceRec, notUp, notHeld, many]

/-! ## The cases of one module (R10 to R12, R16) -/

section

variable {s : State} {side : Side} {m : Nat}

/-- R10: a bad module that is blind, or has not been bad in three passes, moves its record alone. -/
theorem applyModule_suspect (detect : Bool) (yarn : List Bool)
    (h : (s.moduleRec side m).blind = true ∨ (s.moduleRec side m).suspect + 1 < 3) :
    s.applyModule side detect m false yarn = s.moduleSet side m (s.moduleRec side m).bad := by
  rw [applyModule_bad, if_neg]
  rintro ⟨sees, many⟩
  rcases h with blind | few
  · rw [sees] at blind
    cases blind
  · omega

/-- R11: at the third bad pass in a row a module goes blind. -/
theorem applyModule_blinds (detect : Bool) (yarn : List Bool) (sees : (s.moduleRec side m).blind = false)
    (many : 3 ≤ (s.moduleRec side m).suspect + 1) :
    s.applyModule side detect m false yarn =
      ((s.moduleSet side m (s.moduleRec side m).bad).runsCleared (s.spindlesIn side m)).blindModule side m := by
  rw [applyModule_bad, if_pos ⟨sees, many⟩]

/-- R12: a blind module that has not been good in eight passes stays blind. -/
theorem applyModule_waits (detect : Bool) (yarn : List Bool) (blind : (s.moduleRec side m).blind = true)
    (few : (s.moduleRec side m).recovery + 1 < 8) :
    s.applyModule side detect m true yarn = s.moduleRead side m ⟨0, (s.moduleRec side m).recovery + 1, true⟩ yarn := by
  simp [applyModule_good, blind, few, ModuleRec.good]

/-- R12: at the eighth good pass a blind module recovers. -/
theorem applyModule_recovers (detect : Bool) (yarn : List Bool) (blind : (s.moduleRec side m).blind = true)
    (many : 8 ≤ (s.moduleRec side m).recovery + 1) :
    s.applyModule side detect m true yarn = (s.moduleRead side m ⟨0, 0, false⟩ yarn).recoverModule side m yarn := by
  have enough : ¬(s.moduleRec side m).recovery + 1 < 8 := Nat.not_lt.mpr many
  simp [applyModule_good, blind, enough, ModuleRec.good]

theorem good_of_sighted {old : ModuleRec} (sees : old.blind = false) : old.good = ⟨0, old.recovery, false⟩ := by
  simp [ModuleRec.good, sees]

/-- R15: with the detect condition not holding, a good module that is not blind is read and no more. -/
theorem applyModule_reads (yarn : List Bool) (sees : (s.moduleRec side m).blind = false) :
    s.applyModule side false m true yarn = s.moduleRead side m ⟨0, (s.moduleRec side m).recovery, false⟩ yarn := by
  simp [applyModule_good, sees, good_of_sighted]

/-- R16: with the detect condition holding, debounce runs on the readings of such a module. -/
theorem applyModule_debounces (yarn : List Bool) (sees : (s.moduleRec side m).blind = false) :
    s.applyModule side true m true yarn =
      (s.moduleRead side m ⟨0, (s.moduleRec side m).recovery, false⟩ yarn).debounceModule side m yarn := by
  simp [applyModule_good, sees, good_of_sighted]

end

/-! ## A good pass without the detect condition (R15) -/

/-- No module of the side is blind. -/
def State.sighted (s : State) (side : Side) : Prop := ∀ m ∈ (s.chain.side side).modules, m.blind = false

theorem moduleRec_sighted {s : State} {side : Side} (h : s.sighted side) (m : Nat) :
    (s.moduleRec side m).blind = false := by
  unfold State.moduleRec
  rw [List.getD_eq_getElem?_getD]
  cases found : (s.chain.side side).modules[m - 1]? with
  | none => rfl
  | some old => exact h old (List.mem_of_getElem? found)

/-- A good module that is not blind moves the chain engine alone, and does not go blind. -/
theorem applyModule_quiet {s : State} {side : Side} (h : s.sighted side) (m : Nat) (yarn : List Bool) :
    s.applyModule side false m true yarn = s.withChain (s.applyModule side false m true yarn).chain ∧
      (s.applyModule side false m true yarn).sighted side := by
  have sees := moduleRec_sighted h m
  refine ⟨?_, fun v hv => ?_⟩
  · rw [applyModule_reads yarn sees]
    rfl
  · rw [applyModule_side] at hv
    rcases List.mem_or_eq_of_mem_set hv with old | rfl
    · exact h v old
    · simpa [sees] using (judged_good (s.moduleRec side m)).2

theorem applyModules_quiet {side : Side} {frames : List PendingFrame} (passing : ∀ f ∈ frames, f.passing = true) :
    ∀ (m : Nat) (s : State), s.sighted side →
      s.applyModules side false true m frames = s.withChain (s.applyModules side false true m frames).chain := by
  induction frames with
  | nil => exact fun _ _ _ => rfl
  | cons f frames ih =>
    intro m s h
    rw [State.applyModules, passing f List.mem_cons_self, Bool.and_self]
    obtain ⟨one, sees⟩ := applyModule_quiet h m f.yarn
    rw [ih (fun g hg => passing g (List.mem_cons_of_mem _ hg)) (m + 1) _ sees]
    generalize (State.applyModules ..).chain = c
    rw [one]
    rfl

/-- R15: a good pass of a side without blind modules, with the detect condition not holding, clears the run counters of
the side; of the rest it moves the chain engine alone. -/
theorem applyPass_quiet {s : State} {side : Side} {frames : List PendingFrame} (stands : s.detects = false)
    (passing : ∀ f ∈ frames, f.passing = true) (sees : s.sighted side) :
    ∃ c, s.applyPass side frames true = (s.runsCleared (s.spindlesOf side)).withChain c := by
  have sighted : (s.trailed side true).sighted side := by
    unfold State.sighted
    rw [trailed_side]
    exact sees
  refine ⟨(s.applyPass side frames true).chain, ?_⟩
  rw [applyPass_trailed, stands, applyModules_quiet passing 1 _ sighted]
  simp only [State.trailed, stands]
  rfl

theorem nextPass_withChain (s : State) : ∃ c, s.nextPass = s.withChain c := by
  unfold State.nextPass
  repeat' split
  · exact ⟨s.chain, rfl⟩
  · exact ⟨_, rfl⟩
  · exact ⟨s.chain, rfl⟩

/-- R15: at the end of such a pass the run counters of the side are 0, and the rest of the part stands. -/
theorem senseEnds_quiet {s : State} {f : PassFlight} (stands : s.detects = false)
    (passing : ∀ frame ∈ f.frames, frame.passing = true) (sees : s.sighted f.pass.side) :
    ∃ c, s.senseEnds f 0b101001101001#12 = (s.runsCleared (s.spindlesOf f.pass.side)).withChain c := by
  obtain ⟨applied, pass⟩ := applyPass_quiet stands passing sees
  obtain ⟨c, next⟩ := nextPass_withChain (s.sensed f 0b101001101001#12)
  have matched : ((0b101001101001#12 : BitVec 12) == trailerPattern) = true := rfl
  rw [senseEnds_eq, next]
  unfold State.sensed
  rw [matched, pass]
  exact ⟨c, rfl⟩

/-! ## A module that goes blind (R34, R82) -/

theorem hasCall_iff (s : State) (n : Nat) :
    s.hasCall n = true ↔ ∃ r c, s.spindle n = some r ∧ r.call.bind s.liveCall = some c := by
  unfold State.hasCall
  cases s.spindle n <;> simp [Option.isSome_iff_exists]

/-- R34, R82: the spindles of a module gone blind are held one after another; one walk follows if a call ended. -/
theorem blindModule_walks {s : State} {side : Side} {m : Nat}
    (calls : ∃ n ∈ s.spindlesIn side m, ∃ r c, s.spindle n = some r ∧ r.call.bind s.liveCall = some c) :
    s.blindModule side m = ((s.spindlesIn side m).foldl State.holdSpindle s).walk := by
  obtain ⟨n, hn, call⟩ := calls
  have freed : (s.spindlesIn side m).any s.hasCall = true :=
    List.any_eq_true.mpr ⟨n, hn, (hasCall_iff s n).mpr call⟩
  exact if_pos freed

/-- R84: with no call ended no walk follows. -/
theorem blindModule_holds {s : State} {side : Side} {m : Nat}
    (free : ∀ n ∈ s.spindlesIn side m, ∀ r, s.spindle n = some r → r.call.bind s.liveCall = none) :
    s.blindModule side m = (s.spindlesIn side m).foldl State.holdSpindle s := by
  refine if_neg fun freed => ?_
  obtain ⟨n, hn, call⟩ := List.any_eq_true.mp freed
  obtain ⟨r, c, hr, hc⟩ := (hasCall_iff s n).mp call
  rw [free n hn r hr] at hc
  cases hc

theorem heldFrom_eq (st : SpindleState) : st.heldFrom = if st = .called ∨ st = .taken then .down else st := by
  cases st <;> rfl

/-- R34, R37: the record of a spindle as it goes to HELD. -/
theorem hold_eq (r : SpindleRec) (d : DCount) :
    r.hold d =
      { r with state := .held, run := if r.state = .up then 0 else r.run,
               upMark := if r.state = .up then d else r.upMark,
               length := if r.state = .up then min 16777215 (r.length + (d - r.upMark).toNat) else r.length,
               heldFrom := some (if r.state = .called ∨ r.state = .taken then .down else r.state),
               heldMark := some d, call := none, notBefore := none } := by
  rw [SpindleRec.hold, heldFrom_eq, SpindleRec.closeOff]
  by_cases up : r.state = .up
  · simp only [if_pos up]
    rw [enter_across (by simp only [up, reduceCtorEq, iff_false, not_true, not_false_eq_true])]
    rfl
  · simp only [if_neg up]
    rw [enter_within (by simp only [up, reduceCtorEq])]

theorem holdSpindle_absent {s : State} {n : Nat} (h : s.spindle n = none) : s.holdSpindle n = s := by
  simp [State.holdSpindle, h]

theorem holdSpindle_held {s : State} {n : Nat} {r : SpindleRec} (h : s.spindle n = some r) (held : r.state = .held) :
    s.holdSpindle n = s := by
  simp [State.holdSpindle, h, held]

/-! ## A module that recovers (R35, R37) -/

@[simp] theorem addHeldSum_downTarget (s : State) (side : Side) (v n : Nat) :
    (s.addHeldSum side v).downTarget n = s.downTarget n := by
  cases side <;> rfl

theorem downTarget_ne_up (s : State) (n : Nat) : s.downTarget n ≠ .up := by
  unfold State.downTarget
  split <;> exact SpindleState.noConfusion

/-- R37: the held delivery of a spindle that a recovered module returns goes to the sum of its side. -/
theorem recoverSpindle_heldSum {s : State} {n : Nat} {r : SpindleRec} {origin : SpindleState} {mark : DCount}
    (yarn : Bool) (hr : s.spindle n = some r) (ho : r.heldFrom = some origin) (hm : r.heldMark = some mark)
    (side : Side) :
    (s.recoverSpindle n yarn).heldSum side =
      if s.sideOf n = side then min 4294967295 (s.heldSum side + (s.drive.d - mark).toNat) else s.heldSum side := by
  have added := addHeldSum_heldSum s (s.sideOf n) side (r.heldDelivery s.drive.d)
  have delivery : r.heldDelivery s.drive.d = (s.drive.d - mark).toNat := by simp [SpindleRec.heldDelivery, hm]
  rw [recoverSpindle_eq s n yarn r origin hr ho, ← delivery, ← added]
  dsimp only
  split
  · rw [editSpindle_heldSum]
  · split
    · rw [editSpindle_heldSum]
    · exact (sendDown_effect _ _ _).2.2 side

theorem recoverSpindle_others {s : State} {n k : Nat} {r : SpindleRec} {origin : SpindleState} (yarn : Bool)
    (hr : s.spindle n = some r) (ho : r.heldFrom = some origin) (hk : k ≠ n) :
    (s.recoverSpindle n yarn).spindle k = s.spindle k := by
  rw [recoverSpindle_eq s n yarn r origin hr ho]
  dsimp only
  split
  · rw [spindle_editSpindle, if_neg hk, addHeldSum_spindle]
  · split
    · rw [spindle_editSpindle, if_neg hk, addHeldSum_spindle]
    · rw [(sendDown_effect _ _ _).1, if_neg hk, addHeldSum_spindle]

/-- R35: HELD from LOCKED returns to LOCKED. -/
theorem recoverSpindle_locked {s : State} {n : Nat} {r : SpindleRec} (yarn : Bool) (hr : s.spindle n = some r)
    (held : r.state = .held) (ho : r.heldFrom = some .locked) :
    (s.recoverSpindle n yarn).spindle n = some
        { r with state := .locked, heldFrom := none, heldMark := none, notBefore := none } ∧
      (s.recoverSpindle n yarn).table.breakList = s.table.breakList := by
  have kept : ({ r with heldFrom := none, heldMark := none } : SpindleRec).enter .locked =
      { r with state := .locked, heldFrom := none, heldMark := none } :=
    enter_within (by simp only [held, reduceCtorEq])
  rw [recoverSpindle_eq s n yarn r _ hr ho]
  dsimp only
  rw [if_pos rfl, spindle_editSpindle, if_pos rfl, addHeldSum_spindle, hr, Option.map_some, kept, editSpindle_breakList,
    addHeldSum_breakList]
  exact ⟨rfl, rfl⟩

/-- R35: HELD from UP returns to UP where the recovery pass reads yarn. -/
theorem recoverSpindle_up {s : State} {n : Nat} {r : SpindleRec} (hr : s.spindle n = some r)
    (held : r.state = .held) (ho : r.heldFrom = some .up) :
    (s.recoverSpindle n true).spindle n = some
        { r with state := .up, run := 0, upMark := s.drive.d, heldFrom := none, heldMark := none,
                 notBefore := none } ∧
      (s.recoverSpindle n true).table.breakList = s.table.breakList := by
  have cleared : ({ r with heldFrom := none, heldMark := none } : SpindleRec).enter .up =
      { r with state := .up, run := 0, heldFrom := none, heldMark := none } :=
    enter_across (by simp only [held, reduceCtorEq, iff_true, not_false_eq_true])
  rw [recoverSpindle_eq s n true r _ hr ho]
  dsimp only
  rw [if_neg SpindleState.noConfusion, if_pos ⟨rfl, rfl⟩, spindle_editSpindle, if_pos rfl, addHeldSum_spindle, hr,
    Option.map_some, cleared, editSpindle_breakList, addHeldSum_breakList]
  exact ⟨rfl, rfl⟩

/-- R24, R35: every other spindle enters the down states at the tail of the break list. -/
theorem recoverSpindle_down {s : State} {n : Nat} {r : SpindleRec} {origin : SpindleState} {yarn : Bool}
    (hr : s.spindle n = some r) (held : r.state = .held) (ho : r.heldFrom = some origin)
    (unlocked : origin ≠ .locked) (broken : ¬(origin = .up ∧ yarn = true)) :
    (s.recoverSpindle n yarn).spindle n = some
        { r with state := s.downTarget n, downSince := s.clock / 1000000, heldFrom := none, heldMark := none,
                 notBefore := none } ∧
      (s.recoverSpindle n yarn).table.breakList = s.table.breakList ++ [n] := by
  have kept : ({ r with heldFrom := none, heldMark := none } : SpindleRec).enter (s.downTarget n) =
      { r with state := s.downTarget n, heldFrom := none, heldMark := none } :=
    enter_within (by simp only [held, downTarget_ne_up, reduceCtorEq])
  have second : (s.addHeldSum (s.sideOf n) (r.heldDelivery s.drive.d)).second = s.clock / 1000000 :=
    congrArg (· / 1000000) (addHeldSum_frame ..).2.1
  rw [recoverSpindle_eq s n yarn r origin hr ho]
  dsimp only
  rw [if_neg unlocked, if_neg broken]
  obtain ⟨records, breaks, -⟩ := sendDown_effect (s.addHeldSum (s.sideOf n) (r.heldDelivery s.drive.d)) n
    (fun r => { r with heldFrom := none, heldMark := none })
  rw [records, breaks, if_pos rfl, addHeldSum_spindle, hr, Option.map_some, addHeldSum_downTarget, kept, second,
    addHeldSum_breakList]
  exact ⟨rfl, rfl⟩

/-- Settles O15: a quiet pass, the cases of `applyModule`, the table of `debounceRec`, and the spindles of a module that
goes blind or recovers. -/
theorem debounceFollowsDetectAndTable : Obligations.DebounceFollowsDetectAndTable := by
  refine ⟨?quiet, detects_iff, ?module, debounceRec_rows, ?blind, ?hold, fun _ _ _ _ => rfl, ?recover⟩
  case quiet =>
    intro t s f active flight kind whole lasted stands passing sees full
    obtain ⟨c, quiet⟩ := senseEnds_quiet (s := s.later t) stands passing sees
    have ends := execSensePassEnd_due t 0b101001101001#12 active flight kind whole lasted
    refine ⟨_, ends.trans (congrArg _ quiet), rfl, rfl, rfl, fun n r hr => ?_, rfl, rfl, rfl, rfl, rfl, rfl⟩
    obtain ⟨low, high⟩ := spindle_range hr
    have side : n ∈ (s.later t).spindlesOf f.pass.side ↔ s.sideOf n = f.pass.side :=
      mem_spindlesOf (s := s.later t) f.pass.side low (full ▸ high)
    have here : (s.later t).spindle n = some r := hr
    rw [withChain_spindle, spindle_runsCleared, here, Option.map_some]
    simp only [side]
  case module =>
    rintro s side detect m yarn _ rfl
    have own : (s.chain.side side).modules.getD (m - 1) ⟨0, 0, false⟩ = s.moduleRec side m := rfl
    rw [own]
    refine ⟨?bad, applyModule_waits detect yarn, applyModule_recovers detect yarn, ?reads, ?debounces⟩
    case bad =>
      rintro _ rfl
      exact ⟨applyModule_suspect detect yarn, applyModule_blinds detect yarn⟩
    case reads =>
      rintro sees rfl
      exact applyModule_reads yarn sees
    case debounces =>
      rintro sees rfl _ _ _ rfl rfl rfl
      rw [applyModule_debounces yarn sees, debounceModule_eq, debounceCounts_eq]
      rfl
  case blind =>
    rintro s side m _ rfl
    exact ⟨blindModule_walks, blindModule_holds⟩
  case hold =>
    refine fun s n => ⟨holdSpindle_absent, fun r hr => ⟨holdSpindle_held hr, fun stands => ?_⟩⟩
    obtain ⟨records, breaks, free, ended⟩ := holdSpindle_effect s n r hr stands
    refine ⟨?_, fun k hk => by rw [records, if_neg hk], breaks, free, ended, by simp, by simp, by simp⟩
    rw [records, if_pos rfl, hold_eq]
  case recover =>
    intro s n yarn r origin mark hr held ho hm
    refine ⟨recoverSpindle_heldSum yarn hr ho hm, ?_, ?_, fun down => ?_,
      fun k hk => recoverSpindle_others yarn hr ho hk, by simp, by simp, by simp, by simp⟩
    · rintro rfl
      exact recoverSpindle_locked yarn hr held ho
    · rintro rfl rfl
      exact recoverSpindle_up hr held ho
    · refine recoverSpindle_down hr held ho ?_ ?_
      · rintro rfl
        simp at down
      · rintro ⟨rfl, rfl⟩
        simp at down

end Sys2Proof.Machine
end

section
/-! The output levels: the frame's own, the chains', the configuration port's and the line's (R59, R91, R165, R171,
R191, R194, R204). -/

namespace Sys2Proof.Machine

/-! ## The frame's own outputs (R59, R91, R194) -/

theorem active_iff {s : State} : s.active = true ↔ s.start.phase = .active := by simp [State.active]

theorem driveEnable_iff (s : State) :
    s.driveEnable = true ↔ s.start.phase = .active ∧
      (s.frame.mode = .running ∨ s.frame.mode = .restart ∨ s.frame.mode = .fullStop) := by
  simp [State.driveEnable, driveOn, active_iff, or_assoc]

theorem doffRequest_iff (s : State) :
    s.doffRequest = true ↔ s.start.phase = .active ∧ s.frame.mode = .fullStop := by
  simp [State.doffRequest, active_iff]

theorem listens_iff_underWay {s : State} : s.listens = true ↔ s.underWay := listens_iff

theorem doffLamp_iff (s : State) : s.doffLamp = true ↔ s.underWay ∧ s.drive.fill = 1000 := by
  simp [State.doffLamp, listens_iff_underWay]

theorem faultLamp_iff (s : State) :
    s.faultLamp = true ↔ s.start.phase = .configFault ∨ (s.underWay ∧
      (0 < s.line.clash ∨ s.chain.sideA.trailerMissing = 3 ∨ s.chain.sideB.trailerMissing = 3 ∨
        s.frame.mode = .doffStall ∨ (s.frame.mode = .stopped ∧
          (s.frame.reason = some .drive ∨ s.frame.reason = some .position)))) := by
  simp [State.faultLamp, SideChain.broken, listens_iff_underWay, or_assoc]

/-- R194, R196: no speed signal without supply, in reset and in configuration fault. -/
theorem pwmShare_silent {s : State}
    (h : s.start.phase = .off ∨ s.start.phase = .inReset ∨ s.start.phase = .configFault) : s.pwmShare = 0 := by
  rcases h with h | h | h <;> simp [State.pwmShare, State.listens, h]

theorem pwmShare_running {s : State} (h : s.start.phase = .reading ∨ s.underWay) :
    s.pwmShare = s.drive.dutyRunning := by
  rcases h with h | h
  · simp [State.pwmShare, h]
  · simp [State.pwmShare, listens_iff_underWay.mpr h]

/-! ## The chain outputs (R1, R3, R4, R21) -/

theorem chainPins_low {s : State} {side : Side} (h : s.start.phase ≠ .active ∨ s.modulesOf side = 0) :
    s.chainPins side = ⟨false, false, false, false⟩ := by
  rcases h with h | h <;> simp [State.chainPins, State.active, h, ChainPins.low]

theorem chainPins_driven {s : State} {side : Side} (active : s.start.phase = .active) (chained : s.modulesOf side ≠ 0) :
    s.chainPins side =
      { clocking := s.chain.flight.any (fun f => f.pass.side == side && !s.flightLasted f (s.passBits f.pass))
        load := (s.chain.side side).loadedAt == some s.clock
        latch := (s.chain.side side).latchedAt == some s.clock
        data := s.chain.flight.any (fun f =>
          f.pass == ⟨side, .drive⟩ && (driveStream f.bits).getD (s.shifted f) false) } := by
  rw [State.chainPins, active_iff.mpr active, decide_eq_true (Nat.pos_of_ne_zero chained)]
  rfl

theorem passBits_eq (s : State) (p : Pass) :
    s.passBits p = if p.kind = .sense then 9 * s.modulesOf p.side + 12 else 16 * s.modulesOf p.side := by
  rcases p with ⟨side, kind⟩
  cases kind <;> rfl

/-- R2: the chain clock of a side runs while a pass of the side is being shifted. -/
theorem clocking_iff {s : State} {side : Side} (active : s.start.phase = .active) (chained : s.modulesOf side ≠ 0) :
    (s.chainPins side).clocking = true ↔ ∃ f, s.chain.flight = some f ∧ f.pass.side = side ∧
      s.clock < f.since +
        (if f.pass.kind = .sense then 9 * s.modulesOf side + 12 else 16 * s.modulesOf side) * s.chainPeriod := by
  simp only [chainPins_driven active chained, Option.any_eq_true, Bool.and_eq_true, beq_iff_eq, Bool.not_eq_true',
    State.flightLasted, decide_eq_false_iff_not, Nat.not_le, passBits_eq]
  refine exists_congr fun f => and_congr_right fun _ => and_congr_right fun own => ?_
  rw [own]

/-- R4: the data output of a side is high in the periods of the high bits of its drive pass. -/
theorem data_iff {s : State} {side : Side} (active : s.start.phase = .active) (chained : s.modulesOf side ≠ 0) :
    (s.chainPins side).data = true ↔ ∃ f, s.chain.flight = some f ∧ f.pass = ⟨side, .drive⟩ ∧
      (f.bits.reverse.flatMap (fun b => [b.lamp, b.clamp]))[(s.clock - f.since) / s.chainPeriod]? = some true := by
  simp only [chainPins_driven active chained, Option.any_eq_true, Bool.and_eq_true, beq_iff_eq]
  refine exists_congr fun f => and_congr_right fun _ => and_congr_right fun _ => ?_
  rw [List.getD_eq_getElem?_getD, driveStream, State.shifted]
  cases (f.bits.reverse.flatMap (fun b => [b.lamp, b.clamp]))[(s.clock - f.since) / s.chainPeriod]? <;> simp

/-! ## The configuration port (R191) -/

theorem configPins_reading {s : State} (reading : s.start.phase = .reading)
    (lasts : s.clock < s.start.phaseStart + 10560) :
    s.configPins.selected = true ∧ s.configPins.clocking = true := by
  have lasts' : s.clock < s.start.phaseStart + Config.readTime := lasts
  simp [State.configPins, reading, lasts']

theorem configPins_low {s : State} (h : s.start.phase ≠ .reading ∨ s.start.phaseStart + 10560 ≤ s.clock) :
    s.configPins = ⟨false, false, false⟩ := by
  unfold State.configPins Config.readTime
  rcases h with h | h
  · simp [h]
  · simp [Nat.not_lt.mpr h]

/-! ## The line (R165, R171) -/

/-- The bit time is one of 8, 4 and 2 µs, so it has two whole halves. -/
theorem bitTime_halves (s : State) : ∃ half, s.bitTime = 2 * half ∧ 0 < half := by
  unfold State.bitTime
  split
  · exact ⟨4, rfl, by decide⟩
  · exact ⟨2, rfl, by decide⟩
  · exact ⟨1, rfl, by decide⟩

/-- R165: each bit drives the line with its own level for one half-bit and with the other level for the next. -/
theorem lineLevels_halves (bits : List Bool) : ∀ k : Nat,
    (lineLevels bits)[2 * k]? = bits[k]? ∧ (lineLevels bits)[2 * k + 1]? = (bits[k]?).map (fun bit => !bit) := by
  induction bits with
  | nil => exact fun _ => ⟨rfl, rfl⟩
  | cons bit bits ih =>
    have levels : lineLevels (bit :: bits) = bit :: (!bit) :: lineLevels bits := rfl
    intro k
    cases k with
    | zero => exact ⟨rfl, rfl⟩
    | succ k => simpa [levels, Nat.mul_succ] using ih k

/-- The level of the line so long after the first bit began, where bit `k` lasts `period` from `k * period` on. -/
theorem lineLevels_at {bits : List Bool} {bit : Bool} {k half elapsed : Nat} (h : bits[k]? = some bit) (pos : 0 < half)
    (begun : k * (2 * half) ≤ elapsed) (lasts : elapsed < (k + 1) * (2 * half)) :
    (lineLevels bits)[2 * elapsed / (2 * half)]? =
      some (if 2 * (elapsed - k * (2 * half)) < 2 * half then bit else !bit) := by
  obtain ⟨first, second⟩ := lineLevels_halves bits k
  obtain ⟨rest, rfl⟩ := Nat.exists_eq_add_of_le begun
  have inside : rest < 2 * half := by
    have next : (k + 1) * (2 * half) = k * (2 * half) + 2 * half := Nat.succ_mul k _
    omega
  have place : 2 * (k * (2 * half) + rest) / (2 * half) = 2 * k + rest / half := by
    have swapped : k * (2 * half) + rest = rest + half * (2 * k) := by
      rw [Nat.mul_comm half, Nat.mul_comm 2 k, Nat.mul_assoc, Nat.add_comm]
    rw [Nat.mul_div_mul_left _ _ (by decide), swapped, Nat.add_mul_div_left _ _ pos, Nat.add_comm]
  rw [place, Nat.add_sub_cancel_left]
  by_cases early : rest < half
  · rw [Nat.div_eq_of_lt early, if_pos (by omega), Nat.add_zero, first, h]
  · have one : rest / half = 1 := Nat.div_eq_of_lt_le (by omega) (by omega)
    rw [one, if_neg (by omega), second, h, Option.map_some]

theorem lineLevel_silent {s : State} (h : s.start.phase ≠ .active ∨ s.line.flight = none ∨
    ∃ f ends, s.line.flight = some f ∧ f.phase = .backingOff ends) : s.lineLevel = none := by
  unfold State.lineLevel
  rcases h with h | h | ⟨f, ends, h, backing⟩
  · simp [State.active, h]
  · simp [h]
  · simp [h, backing]

/-- R165: a notice is sent bit by bit from the moment its sending began. -/
theorem lineLevel_sending {s : State} {f : SendFlight} {since k : Nat} {bit : Bool} (active : s.start.phase = .active)
    (flight : s.line.flight = some f) (sends : f.phase = .sending since) (h : f.notice.wireBits[k]? = some bit)
    (begun : since + k * s.bitTime ≤ s.clock) (lasts : s.clock < since + (k + 1) * s.bitTime) :
    s.lineLevel = some (if 2 * (s.clock - (since + k * s.bitTime)) < s.bitTime then bit else !bit) := by
  have level : s.lineLevel = (lineLevels f.notice.wireBits)[2 * (s.clock - since) / s.bitTime]? := by
    simp [State.lineLevel, active_iff.mpr active, flight, sends]
  obtain ⟨half, twice, pos⟩ := bitTime_halves s
  rw [twice] at level begun lasts ⊢
  rw [level, lineLevels_at h pos (by omega) (by omega), Nat.sub_sub]

theorem jamBits_at (ends : Nat) {k : Nat} (h : k < 32) :
    (jamBits ends)[k]? = some (if k % 2 = 0 then Config.freeJamBit ends else !Config.freeJamBit ends) := by
  rw [jamBits, List.getElem?_map, List.getElem?_range h, Option.map_some]
  rcases Nat.mod_two_eq_zero_or_one k with even | odd
  · simp [even]
  · simp [odd]

/-- R171: the 32 bits of a jam, of which the last ends as the jam does. -/
theorem lineLevel_jamming {s : State} {f : SendFlight} {ends k : Nat} (active : s.start.phase = .active)
    (flight : s.line.flight = some f) (jams : f.phase = .jamming ends) (few : k < 32)
    (begun : ends + k * s.bitTime ≤ s.clock + 32 * s.bitTime)
    (lasts : s.clock + 32 * s.bitTime < ends + (k + 1) * s.bitTime) {bit : Bool}
    (h : bit = if k % 2 = 0 then Config.freeJamBit ends else !Config.freeJamBit ends) :
    s.lineLevel = some (if 2 * (s.clock + 32 * s.bitTime - (ends + k * s.bitTime)) < s.bitTime then bit
      else !bit) := by
  have level : s.lineLevel = (lineLevels (jamBits ends))[2 * (s.clock + 32 * s.bitTime - ends) / s.bitTime]? := by
    simp [State.lineLevel, active_iff.mpr active, flight, jams]
  have own : (jamBits ends)[k]? = some bit := (jamBits_at ends few).trans (congrArg some h.symm)
  obtain ⟨half, twice, pos⟩ := bitTime_halves s
  rw [twice] at level begun lasts ⊢
  rw [level, lineLevels_at own pos (by omega) (by omega), Nat.sub_sub]

/-! ## The bits of a notice (R166, R200) -/

theorem body_of_kind {n : Notice} {kind : Kind} (h : n.kind = some kind) :
    n.body =
      [BitVec.ofNat 8 n.dst, BitVec.ofNat 8 n.src, BitVec.ofNat 8 kind.code, if n.fresh = true then 1#8 else 0#8] ++
      wordField n.reference ++ [BitVec.ofNat 8 n.payload.length] ++ n.payload := by
  have flags : BitVec.ofNat 8 (if n.fresh then 1 else 0) = if n.fresh = true then 1#8 else 0#8 := by
    cases n.fresh <;> rfl
  simp [Notice.body, byteField, h, flags]

/-- Settles O41: each output by the lemmas above; a notice goes out as preamble, body and check. -/
theorem outputsFollowModeAndCauses : Obligations.OutputsFollowModeAndCauses := by
  refine ⟨fun s => ⟨driveEnable_iff s, doffRequest_iff s, doffLamp_iff s, faultLamp_iff s, pwmShare_silent,
      pwmShare_running⟩,
    fun s side => ⟨chainPins_low, fun active chained => ⟨clocking_iff active chained, ?load, ?latch,
      data_iff active chained⟩⟩,
    fun s => ⟨configPins_reading, configPins_low⟩,
    fun s => ⟨lineLevel_silent, fun f since k bit => lineLevel_sending⟩,
    ⟨Config.freeJamBit, fun s f ends k active flight jams few begun lasts bit =>
      lineLevel_jamming active flight jams few begun lasts⟩,
    ?times, ?bits⟩
  case load => simp [chainPins_driven active chained]
  case latch => simp [chainPins_driven active chained]
  case times =>
    intro s
    refine ⟨?_, ?_, ?_, ?_, ?_, ?_, ?_⟩ <;> intro field
    all_goals simp [State.bitTime, State.chainPeriod, field]
  case bits =>
    rintro n kind _ h rfl
    rw [← body_of_kind h]
    rfl

end Sys2Proof.Machine
end

section
/-! The walk of the break list: the spindles it chooses, and what it makes of their records (R64 to R68). -/

namespace Sys2Proof.Machine

/-! ## One entry of the break list (R67) -/

/-- An entry that the first `k` entries of its list leave out finds all `k` places filled. -/
theorem full_of_not_mem_take {α : Type} {l : List α} {a : α} {k : Nat} (listed : a ∈ l) (left : a ∉ l.take k) :
    k ≤ (l.take k).length := by
  rw [List.length_take]
  refine Nat.le_min.mpr ⟨Nat.le_refl k, Nat.le_of_not_lt fun short => left ?_⟩
  rwa [List.take_of_length_le (Nat.le_of_lt short)]

/-- At an entry of the break list the walk opens a call for a spindle that is down and waits, or passes it over. -/
theorem walkAt_cases (s : State) (n : Nat) :
    s.walkAt n = s ∨ ∃ r, s.spindle n = some r ∧ r.state = .down ∧ s.walkAt n = s.openCall n := by
  by_cases h : (s.slotFree && s.callable n) = true
  · obtain ⟨r, present, down, _⟩ := (callable_iff s n).mp (Bool.and_eq_true_iff.mp h).2
    exact .inr ⟨r, present, down, if_pos h⟩
  · exact .inl (if_neg h)

theorem walkAt_breakList (s : State) (n : Nat) : (s.walkAt n).table.breakList = s.table.breakList := by
  obtain h | ⟨r, present, down, h⟩ := walkAt_cases s n
  · rw [h]
  · rw [h]
    obtain ⟨-, -, -, -, -, breaks, -⟩ := openCall_effect s n r present down
    exact breaks

/-! ## The whole list (R67, R68) -/

/-- What a walk along a list does with the spindles: each call is new and marks the record of its spindle, and the other
records stay. -/
theorem walkFold_records (l : List Nat) : ∀ s : State, l.Nodup → ∃ opened : List Call,
    (l.foldl State.walkAt s).pieces.calls = s.pieces.calls ++ opened ∧
      (∀ c ∈ opened, c.spindle ∈ l ∧ c = { s.newCall c.spindle with number := c.number } ∧
        ∀ r, s.spindle c.spindle = some r → (l.foldl State.walkAt s).spindle c.spindle =
          some { r with state := .called, call := some c.number, notBefore := none }) ∧
      ∀ n, n ∉ opened.map (fun c => c.spindle) → (l.foldl State.walkAt s).spindle n = s.spindle n := by
  induction l with
  | nil => exact fun s _ => ⟨[], by simp, by simp, fun _ _ => rfl⟩
  | cons n l ih =>
    intro s nodup
    obtain ⟨fresh, nodup⟩ := List.nodup_cons.mp nodup
    rw [List.foldl_cons]
    obtain ⟨opened, calls, news, rest⟩ := ih (s.walkAt n) nodup
    obtain h | ⟨r, present, down, h⟩ := walkAt_cases s n <;> rw [h] at calls news rest ⊢
    · exact ⟨opened, calls, fun c hc => (news c hc).imp_left (List.mem_cons_of_mem n), rest⟩
    · obtain ⟨pieces, -, -, called, others, -, -, -, clock⟩ := openCall_effect s n r present down
      have later : n ∉ opened.map (fun c => c.spindle) := by
        intro again
        obtain ⟨c, hc, rfl⟩ := List.mem_map.mp again
        exact fresh (news c hc).1
      refine ⟨s.newCall n :: opened, ?calls, List.forall_mem_cons.mpr ⟨?first, fun c hc => ?next⟩,
        fun m hm => ?others⟩
      case calls => simp [calls, pieces]
      case first =>
        refine ⟨List.mem_cons_self, rfl, fun r' hr' => ?_⟩
        obtain rfl : r = r' := Option.some.inj (present.symm.trans hr')
        exact (rest n later).trans called
      case next =>
        obtain ⟨listed, new, marks⟩ := news c hc
        have other : c.spindle ≠ n := fun e => fresh (e ▸ listed)
        have moment : (s.openCall n).nowMs = s.nowMs := congrArg (· / 1000) clock
        refine ⟨List.mem_cons_of_mem n listed, ?_, fun r' hr' => marks r' ((others _ other).trans hr')⟩
        rwa [State.newCall, moment] at new
      case others =>
        obtain ⟨other, unopened⟩ := not_or.mp (mt List.mem_cons.mpr hm)
        exact (rest m unopened).trans (others m other)

/-! ## The conditions of a walk (R66) -/

theorem serving_iff (s : State) (p : Peer) : s.serving p = true ↔
    p.kind = .piecer ∧ s.start.strap ∈ p.patrol ∧ s.clock / 1000 ≤ p.lastHeard + 30000 := by
  simp only [State.serving, Bool.and_eq_true, beq_iff_eq, List.contains_iff_mem, decide_eq_true_iff, and_assoc]
  rfl

theorem mayOpen_iff (s : State) : s.mayOpen = true ↔ s.callsMayOpen := by
  simp [State.mayOpen, State.callsMayOpen, calling, serving_iff, State.slotFree, and_assoc]

theorem walk_closed {s : State} (closed : ¬s.callsMayOpen) : s.walk = s := if_neg (mt (mayOpen_iff s).mp closed)

theorem walk_open {s : State} (opens : s.callsMayOpen) : s.walk = s.table.breakList.foldl State.walkAt s :=
  if_pos ((mayOpen_iff s).mpr opens)

/-- Settles O33: without the four conditions nothing opens; with them the calls, their numbers and notices are those of
`walkFold_effect`, the records those of `walkFold_records`. -/
theorem walkOpensTheOldestBreaks : Obligations.WalkOpensTheOldestBreaks := by
  refine fun s => ⟨walk_closed, fun nodup => ?_⟩
  by_cases opens : s.callsMayOpen
  case neg =>
    rw [walk_closed opens]
    exact ⟨[], by simp, by simp, by simp, by simp, fun h => absurd h opens, fun h => absurd h opens, rfl,
      fun _ _ => rfl, fun _ _ => rfl, rfl, rfl⟩
  case pos =>
    obtain ⟨opened, calls, spindles, serials, line, tally⟩ := walkFold_effect s.table.breakList s nodup
    obtain ⟨_, calls', news, rest⟩ := walkFold_records s.table.breakList s nodup
    obtain rfl := List.append_cancel_left (calls.symm.trans calls')
    have waits {n : Nat} : n ∈ s.table.breakList.filter s.callable ↔ n ∈ s.table.breakList ∧ s.endWaits n := by
      rw [List.mem_filter, callable_iff]
    have count : opened.length =
        ((s.table.breakList.filter s.callable).take (s.cfg.openCallLimit - s.pieces.calls.length)).length := by
      rw [← spindles, List.length_map]
    rw [walk_open opens]
    refine ⟨opened, calls, ?sublist, fun c hc => ?new, fun few => ?limit,
      fun _ => ⟨_, List.filter_sublist, fun n => waits, spindles⟩, fun _ n listed left waiting => ?full,
      foldl_keeps (fun u : State => u.table.breakList) _ walkAt_breakList _ _, rest,
      fun range limit => serials range (by omega), line, tally⟩
    case sublist =>
      rw [spindles]
      exact (List.take_sublist _ _).trans List.filter_sublist
    case new =>
      obtain ⟨-, new, marks⟩ := news c hc
      have chosen : c.spindle ∈ opened.map (fun c => c.spindle) := List.mem_map_of_mem hc
      rw [spindles] at chosen
      exact ⟨congrArg Call.state new, congrArg Call.openedAt new, congrArg Call.repeats new,
        congrArg Call.carriage new, congrArg Call.takenAt new, congrArg Call.verifyUntil new,
        (waits.mp (List.mem_of_mem_take chosen)).2, marks⟩
    case limit =>
      have := List.length_take_le (s.cfg.openCallLimit - s.pieces.calls.length)
        (s.table.breakList.filter s.callable)
      rw [List.length_append]
      omega
    case full =>
      have := full_of_not_mem_take (waits.mpr ⟨listed, waiting⟩) (spindles ▸ left)
      rw [List.length_append]
      omega

end Sys2Proof.Machine
end
section
/-! The state right after reset meets the invariants (R115, R141, R162, R187). -/

namespace Sys2Proof.Machine

theorem reset_withinBounds : State.reset.withinBounds := by
  refine ⟨?outbound, ?inbound, ?peers, ?ring, ?histories⟩
  case outbound => exact ⟨Nat.zero_le _, Nat.zero_le _, Nat.zero_le _, Nat.zero_le _⟩
  case inbound => exact Nat.zero_le _
  case peers => exact ⟨Nat.zero_le _, List.nodup_nil⟩
  case ring => exact ⟨Nat.zero_le _, List.nodup_nil, List.not_mem_nil⟩
  case histories => exact ⟨Nat.zero_le _, fun _ none => nomatch none⟩

theorem zeroCounts_inRange : FrameCounts.zero.inRange := by
  unfold FrameCounts.inRange FrameCounts.zero
  decide

theorem zeroSideCounts_inRange : SideCounts.zero.inRange := by
  unfold SideCounts.inRange SideCounts.zero
  decide

theorem reset_countsInRange : State.reset.countsInRange :=
  ⟨⟨zeroCounts_inRange, zeroSideCounts_inRange, zeroSideCounts_inRange⟩, fun _ none => nomatch none⟩

/-- At reset the configuration read has not ended: the part neither listens nor is active. -/
theorem reset_not_underWay : ¬State.reset.underWay := by
  rintro (listening | active)
  · cases listening
  · cases active

theorem reset_serialInRange : State.reset.serialInRange := ⟨Nat.le_refl 1, by decide⟩

/-- Settles O60: the queues, tables and counts are empty, the serial is 1, and what the frame and the table keep is asked
from the listening period on alone. -/
theorem invariantsHoldAtReset : Obligations.InvariantsHoldAtReset :=
  ⟨reset_withinBounds, reset_countsInRange, fun begun => absurd begun reset_not_underWay, reset_serialInRange,
    fun begun => absurd begun reset_not_underWay⟩

end Sys2Proof.Machine
end

section
/-! The inputs, the drive fault and the mode timers: what each makes of the frame mode (R90 to R99, R204). -/

namespace Sys2Proof.Machine

/-! ## Run permit, the stop button and the drive fault (R93, R94, R96 to R98) -/

section

variable {s : State}

theorem permitRise_starts (mode : s.frame.mode = .halted ∨ s.frame.mode = .stopped)
    (clear : s.pins.driveFault = false) : s.permitRise = s.startFrame := by
  unfold State.permitRise
  rcases mode with mode | mode <;> simp [mode, clear]

theorem permitRise_stopped (mode : s.frame.mode = .stopped) (fault : s.pins.driveFault = true) :
    s.permitRise = s.withFrame { s.frame with reason := some .drive } := by
  simp [State.permitRise, mode, fault]

theorem permitRise_halted (mode : s.frame.mode = .halted) (fault : s.pins.driveFault = true) : s.permitRise = s := by
  simp [State.permitRise, mode, fault]

theorem permitRise_elsewhere (halted : s.frame.mode ≠ .halted) (stopped : s.frame.mode ≠ .stopped) :
    s.permitRise = s := by
  simp [State.permitRise, halted, stopped]

theorem startFrame_changedMode (s : State) :
    s.changedMode (if s.drive.fill < 1000 then .running else .fullStop) none s.startFrame :=
  changeMode_changedMode s _ none fun _ => rfl

theorem operatorStop_stops (mode : s.frame.mode = .running ∨ s.frame.mode = .restart ∨ s.frame.mode = .fullStop) :
    s.operatorStop = s.changeMode .stopped (some .operator) := by
  unfold State.operatorStop
  rcases mode with mode | mode | mode <;> simp [mode, calling]

theorem operatorStop_marks (mode : s.frame.mode = .fullWait ∨ s.frame.mode = .doffing ∨ s.frame.mode = .doffStall) :
    s.operatorStop = s.withFrame { s.frame with permitDropped := true } := by
  unfold State.operatorStop
  rcases mode with mode | mode | mode <;> simp [mode, calling, doffRound]

theorem operatorStop_standing (mode : s.frame.mode = .halted ∨ s.frame.mode = .stopped) : s.operatorStop = s := by
  unfold State.operatorStop
  rcases mode with mode | mode <;> simp [mode, calling, doffRound]

theorem driveFaulted_stops (mode : s.frame.mode = .running ∨ s.frame.mode = .restart ∨ s.frame.mode = .fullStop) :
    s.driveFaulted = s.changeMode .stopped (some .drive) := by
  unfold State.driveFaulted
  rcases mode with mode | mode | mode <;> simp [mode, driveOn]

theorem driveFaulted_stopped (mode : s.frame.mode = .stopped) :
    s.driveFaulted = s.withFrame { s.frame with reason := some .drive } := by
  simp [State.driveFaulted, mode, driveOn]

theorem driveFaulted_elsewhere (mode : s.frame.mode = .halted ∨ s.frame.mode = .fullWait ∨ s.frame.mode = .doffing ∨
    s.frame.mode = .doffStall) : s.driveFaulted = s := by
  unfold State.driveFaulted
  rcases mode with mode | mode | mode | mode <;> simp [mode, driveOn]

theorem railArrives_waits (mode : s.frame.mode = .fullStop) : s.railArrives = s.changeMode .fullWait none := by
  simp [State.railArrives, mode]

theorem railArrives_elsewhere (mode : s.frame.mode ≠ .fullStop) : s.railArrives = s := by
  simp [State.railArrives, mode]

/-- Every change of mode but one to FULL-STOP may carry a reason. -/
theorem changeMode_elsewhere {new : FrameMode} (s : State) (reason : Option StopReason) (other : new ≠ .fullStop) :
    s.changedMode new reason (s.changeMode new reason) :=
  changeMode_changedMode s new reason fun full => absurd full other

end

/-! ## The commands of the inputs (R90, R204) -/

theorem exec_runPermitRise (t : Nat) (s : State) :
    exec (.runPermitRise t) s = .next (s.onChange t .runPermit true State.permitRise) := rfl

theorem exec_runPermitFall (t : Nat) (s : State) :
    exec (.runPermitFall t) s = .next (s.onChange t .runPermit false State.operatorStop) := rfl

theorem exec_stopButton (t : Nat) (s : State) :
    exec (.stopButton t) s = .next (s.onChange t .stop true State.operatorStop) := rfl

theorem exec_driveFault (t : Nat) (s : State) :
    exec (.driveFault t) s = .next (s.onChange t .driveFault true State.driveFaulted) := rfl

theorem exec_atDoffPosition (t : Nat) (s : State) :
    exec (.atDoffPosition t) s = .next (s.onChange t .atDoff true State.railArrives) := rfl

theorem clockRuns_of_supplied {s : State} (on : s.start.phase ≠ .off) (released : s.start.phase ≠ .inReset) :
    s.clockRuns = true := by
  simp [State.clockRuns, on, released]

/-- Settles O34: the rise acts by `permitRise` on the state with the change taken. -/
theorem runPermitRiseStartsTheFrame : Obligations.RunPermitRiseStartsTheFrame := by
  rintro t s _ rfl
  rw [exec_runPermitRise]
  refine ⟨fun on released idle may => ?unwatched, fun on released stays => ?filtered, fun active may => ?watched⟩
  case unwatched => rw [onChange_unwatched _ (clockRuns_of_supplied on released) idle may]
  case filtered => rw [onChange_stays _ (clockRuns_of_supplied on released) stays]
  case watched =>
    rw [onChange_changed _ active may]
    refine ⟨fun mode clear => ⟨_, congrArg _ (permitRise_starts mode clear), ?_⟩,
      fun mode fault => congrArg _ (permitRise_stopped mode fault),
      fun mode fault => congrArg _ (permitRise_halted mode fault),
      fun halted stopped => congrArg _ (permitRise_elsewhere halted stopped)⟩
    exact startFrame_changedMode (s.changed t .runPermit true)

/-- Settles O35: the operator acts by `operatorStop` and the drive by `driveFaulted` on the state with the change
taken. -/
theorem operatorAndDriveStopTheFrame : Obligations.OperatorAndDriveStopTheFrame := by
  refine ⟨?operator, ?drive, fun t s active => ?filtered⟩
  case operator =>
    intro t s s1 c active command
    have stops : exec c s = .next s1.operatorStop ∧ s1.frame = s.frame := by
      rcases command with ⟨rfl, may, rfl⟩ | ⟨rfl, may, rfl⟩
      · exact ⟨congrArg _ (onChange_changed _ active may), rfl⟩
      · exact ⟨congrArg _ (onChange_changed _ active may), rfl⟩
    obtain ⟨stops, frame⟩ := stops
    rw [stops, ← frame]
    exact ⟨fun mode => ⟨_, congrArg _ (operatorStop_stops mode), changeMode_elsewhere s1 _ (by decide)⟩,
      fun mode => congrArg _ (operatorStop_marks mode), fun mode => congrArg _ (operatorStop_standing mode)⟩
  case drive =>
    rintro t s _ active may rfl
    rw [exec_driveFault, onChange_changed _ active may]
    exact ⟨fun mode => ⟨_, congrArg _ (driveFaulted_stops mode), changeMode_elsewhere _ _ (by decide)⟩,
      fun mode => congrArg _ (driveFaulted_stopped mode), fun mode => congrArg _ (driveFaulted_elsewhere mode)⟩
  case filtered =>
    have runs := clockRuns_of_active active
    exact ⟨fun stays => congrArg _ (onChange_stays _ runs stays), fun stays => congrArg _ (onChange_stays _ runs stays),
      fun stays => congrArg _ (onChange_stays _ runs stays)⟩

/-! ## The mode timers (R94, R96, R99) -/

section

variable {s : State} {t due : Nat} (active : s.start.phase = .active) (reached : due ≤ max s.clock t)
include active reached

theorem exec_restartGrace (mode : s.frame.mode = .restart) (timer : s.frame.graceDue = some due) :
    exec (.restartGrace t) s = .next ((s.later t).changeMode .running none) := by
  have acts : exec (.restartGrace t) s = execRestartGrace t s := rfl
  simp [acts, execRestartGrace, whileActive_later t _ active, mode, timer, Machine.reached, reached]

theorem exec_positionTimeout (mode : s.frame.mode = .fullStop) (timer : s.frame.positionDue = some due) :
    exec (.positionTimeout t) s = .next ((s.later t).changeMode .stopped (some .position)) := by
  have acts : exec (.positionTimeout t) s = execPositionTimeout t s := rfl
  simp [acts, execPositionTimeout, whileActive_later t _ active, mode, timer, Machine.reached, reached]

theorem exec_doffingTimeout (mode : s.frame.mode = .doffing) (timer : s.frame.doffingDue = some due) :
    exec (.doffingTimeout t) s = .next ((s.later t).changeMode .doffStall none) := by
  have acts : exec (.doffingTimeout t) s = execDoffingTimeout t s := rfl
  simp [acts, execDoffingTimeout, whileActive_later t _ active, mode, timer, Machine.reached, reached]

end

/-! ## The levels of the inputs (R90, R204) -/

/-- While part time does not run an input's level is taken as it stands, and nothing acts on it (log 36). -/
theorem onChange_unclocked {s : State} {t : Nat} {i : Input} {level : Bool} (act : State → State)
    (idle : s.start.phase = .off ∨ s.start.phase = .inReset) : s.onChange t i level act =
      { s with pins := if s.pins.level i = level then s.pins else s.pins.take i level none } := by
  have runs : s.clockRuns = false := by rcases idle with h | h <;> simp [State.clockRuns, h]
  have inactive : s.active = false := by
    rcases idle with h | h <;> simp [State.active, h]
  unfold State.onChange State.levelChanges
  by_cases stands : s.pins.level i = level
  · simp [reach_of_stopped t runs, stands]
  · simp only [reach_of_stopped t runs, runs, inactive, stands, bne_iff_ne, ne_eq, not_false_eq_true,
      Bool.not_false, Bool.true_or, Bool.and_true, if_true, if_false, Bool.false_eq_true]
    rfl

/-- Every command of an input is a change of that input with what acts on it; of a level that clears or is released
nothing does. -/
theorem exec_movesInput {c : Instr} {t : Nat} {i : Input} {level : Bool} (s : State)
    (h : movesInput c = some (t, i, level)) : ∃ act : State → State,
      exec c s = .next (s.onChange t i level act) ∧
        ((c = .driveFaultClears t ∨ c = .atDoffPositionClears t ∨ ∃ button, c = .buttonRelease t button) →
          act = id) := by
  cases c
  case sideClearPress u side => cases side <;> cases h <;> exact ⟨_, rfl, by simp⟩
  case buttonRelease u button => cases button <;> cases h <;> exact ⟨_, rfl, fun _ => rfl⟩
  case driveFaultClears | atDoffPositionClears =>
    cases h
    exact ⟨_, rfl, fun _ => rfl⟩
  case runPermitRise | runPermitFall | stopButton | driveFault | atDoffPosition | doffDoneButton =>
    cases h
    exact ⟨_, rfl, by simp⟩
  all_goals cases h

/-- Settles O36: the timers change the mode at their moments; every input moves its own level and moment. -/
theorem timersAndDoffPositionMoveTheFrame : Obligations.TimersAndDoffPositionMoveTheFrame := by
  refine ⟨?timers, ?position, ?levels, ?take, fun p => ⟨rfl, rfl, rfl, rfl, rfl, rfl, rfl⟩⟩
  case timers =>
    intro t due s active reached
    exact ⟨fun mode timer => ⟨_, exec_restartGrace active reached mode timer, changeMode_elsewhere _ _ (by decide)⟩,
      fun mode timer => ⟨_, exec_positionTimeout active reached mode timer, changeMode_elsewhere _ _ (by decide)⟩,
      fun mode timer => ⟨_, exec_doffingTimeout active reached mode timer, changeMode_elsewhere _ _ (by decide)⟩⟩
  case position =>
    rintro t s _ active may rfl
    rw [exec_atDoffPosition, onChange_changed _ active may]
    exact ⟨fun mode => ⟨_, congrArg _ (railArrives_waits mode), changeMode_elsewhere _ _ (by decide)⟩,
      fun mode => congrArg _ (railArrives_elsewhere mode)⟩
  case levels =>
    intro c t i level s moves
    obtain ⟨act, acts, released⟩ := exec_movesInput s moves
    rw [acts]
    refine ⟨fun on out stays => ?_, fun on out may quiet => ?_, fun idle => congrArg _ (onChange_unclocked act idle)⟩
    · rw [onChange_stays act (clockRuns_of_supplied on out) stays]
    · by_cases active : s.start.phase = .active
      · rw [released (quiet.resolve_left (not_not_intro active)), onChange_changed id active may, id]
      · rw [onChange_unwatched act (clockRuns_of_supplied on out) active may]
  case take =>
    intro p i level moment
    exact ⟨by simp, by simp, fun j other => ⟨by simp [other], by simp [other]⟩⟩

end Sys2Proof.Machine
end

section
/-! The doffer's notices and the dialogue of the claim (R98, R99, R101, R103, R108 to R111, R178). -/

namespace Sys2Proof.Machine

/-! ## A handed notice (R178) -/

section

variable (s : State) (t : Nat) (block : Block)

@[simp] theorem handed_start : (s.handed t block).start = s.start := rfl
@[simp] theorem handed_cfg : (s.handed t block).cfg = s.cfg := rfl
@[simp] theorem handed_frame : (s.handed t block).frame = s.frame := rfl
@[simp] theorem handed_drive : (s.handed t block).drive = s.drive := rfl
@[simp] theorem handed_clock : (s.handed t block).clock = max s.clock t := rfl

end

/-! ## DOFF-START, DOFF-END and DOFF-ABORT (R98, R99, R101) -/

section

variable {s : State} {src : Nat}

theorem takeDoffStart_begins (mode : s.frame.mode = .fullWait) : s.takeDoffStart s.cfg.dofferStation =
    ({ s with frame := { s.frame with
        doffStartAt := some (s.frame.doffStartAt.getD (s.clock / 1000000)), claim := Claim.idle } } : State).changeMode
      .doffing none := by
  simp only [State.takeDoffStart, mode, if_true]
  rfl

theorem takeDoffStart_refused (mode : s.frame.mode ≠ .fullWait) :
    s.takeDoffStart s.cfg.dofferStation = s.hand s.refuseNotice := by
  simp [State.takeDoffStart, mode]

theorem takeDoffStart_stranger (other : src ≠ s.cfg.dofferStation) : s.takeDoffStart src = s := if_neg other

theorem takeDoffEnd_ignored (doffing : s.frame.mode ≠ .doffing) (stall : s.frame.mode ≠ .doffStall)
    (full : ¬(s.frame.mode = .halted ∧ s.drive.fill = 1000)) : s.takeDoffEnd src = s := by
  simp only [State.takeDoffEnd]
  rw [if_neg]
  simp only [doffing, stall, full, Bool.and_eq_true, Bool.or_eq_true, beq_iff_eq, or_self, and_false, not_false_eq_true]

theorem takeDoffEnd_stranger (other : src ≠ s.cfg.dofferStation) : s.takeDoffEnd src = s := by
  simp [State.takeDoffEnd, other]

theorem takeDoffAbort_claims (mode : s.frame.mode = .doffing ∨ s.frame.mode = .doffStall) :
    s.takeDoffAbort s.cfg.dofferStation = (s.changeMode .fullWait none).claimed .none := by
  rw [← makeClaim_claimed]
  rcases mode with mode | mode <;> simp [State.takeDoffAbort, mode]

theorem takeDoffAbort_ignored (doffing : s.frame.mode ≠ .doffing) (stall : s.frame.mode ≠ .doffStall) :
    s.takeDoffAbort src = s := by
  simp [State.takeDoffAbort, doffing, stall]

theorem takeDoffAbort_stranger (other : src ≠ s.cfg.dofferStation) : s.takeDoffAbort src = s := by
  simp [State.takeDoffAbort, other]

end

/-- R92: entering FULL-WAIT leaves the fill and the measured forecast, and all that DOFF-CLAIM takes of the start. -/
theorem doffClaim_of_fullWait {s s' : State} (h : s.changedMode .fullWait none s') (answer : ClaimAnswer) :
    s'.doffClaim answer =
      { dst := s.cfg.dofferStation, src := s.start.strap, kind := some .doffClaim, fresh := false, reference := 0,
        payload := [BitVec.ofNat 8 s.start.strap, BitVec.ofNat 8 s.cfg.dofferGroup, 4#8] ++ wordField s.drive.fill ++
          wordField s.drive.measured ++ answer.codes } := by
  obtain ⟨mode, _, _, _, _, _, _, _, _, _, _, _, _, drive, _, _, _, _, _, _, _, _, _, _, _, _, start, _⟩ := h
  have standing := drive (by simp [opensCalls])
  have waits : s'.frame.mode = .fullWait := mode
  simp only [State.doffClaim, State.cfg, start, standing, waits, modeCode]

/-! ## The answers of the doffer (R110) -/

section

variable {s : State} {src : Nat} {state : ClaimState} {position eta : Option Nat} {answer : ClaimAnswer}

theorem takeAnswer_taken (standing : s.frame.claim.state ≠ .none) :
    s.takeAnswer s.cfg.dofferStation state position eta answer =
      { s with frame := { s.frame with claim :=
        { state := state, position := position, eta := eta, lastAnswer := answer, retries := 0, answerDue := none,
          pause := none } } } := by
  have stands : (s.frame.claim.state != .none) = true := bne_iff_ne.mpr standing
  simp only [State.takeAnswer, stands, decide_true, Bool.and_self, if_true]
  rfl

theorem takeAnswer_unclaimed (none : s.frame.claim.state = .none) : s.takeAnswer src state position eta answer = s := by
  simp [State.takeAnswer, none]

theorem takeAnswer_stranger (other : src ≠ s.cfg.dofferStation) : s.takeAnswer src state position eta answer = s := by
  simp [State.takeAnswer, other]

end

/-- R110: a position of 0 or above 15 counts as 15. -/
theorem queuePosition_eq (n : Nat) : queuePosition n = if 1 ≤ n ∧ n ≤ 15 then n else 15 := by
  unfold queuePosition
  by_cases low : n = 0
  · simp [low]
  · by_cases high : 15 < n
    · simp [high, Nat.not_le.mpr high]
    · simp [low, high, Nat.one_le_iff_ne_zero.mpr low, Nat.not_lt.mp high]

/-! ## The commands -/

theorem exec_doffStart (t src : Nat) (s : State) :
    exec (.doffStart t src) s = .next (s.whileHanded t .frameDoff (fun s => s.takeDoffStart src)) := rfl

theorem exec_doffEnd (t src : Nat) (s : State) :
    exec (.doffEnd t src) s = .next (s.whileHanded t .frameDoff (fun s => s.takeDoffEnd src)) := rfl

theorem exec_doffAbort (t src : Nat) (s : State) :
    exec (.doffAbort t src) s = .next (s.whileHanded t .frameDoff (fun s => s.takeDoffAbort src)) := rfl

theorem exec_doffQueued (t src n : Nat) (s : State) : exec (.doffQueued t src n) s = .next
    (s.whileHanded t .frameDoff (fun s => s.takeAnswer src .queued (some (queuePosition n)) none
      (.position (queuePosition n)))) := rfl

theorem exec_doffGrant (t src n : Nat) (s : State) : exec (.doffGrant t src n) s = .next
    (s.whileHanded t .frameDoff (fun s => s.takeAnswer src .granted none (some n) (.eta n))) := rfl

/-- R101: a notice of the doffer from another station changes nothing but the block that took it. -/
theorem exec_stranger {t src : Nat} {s : State} {c : Instr} (active : s.start.phase = .active)
    (free : s.canHand t .frameDoff) (other : src ≠ s.cfg.dofferStation)
    (notice : c = .doffStart t src ∨ c = .doffEnd t src ∨ c = .doffAbort t src ∨ (∃ n, c = .doffQueued t src n) ∨
      ∃ n, c = .doffGrant t src n) : exec c s = .next (s.handed t .frameDoff) := by
  have stranger : src ≠ (s.handed t .frameDoff).cfg.dofferStation := other
  rcases notice with rfl | rfl | rfl | ⟨n, rfl⟩ | ⟨n, rfl⟩
  · rw [exec_doffStart, whileHanded_handed _ active free, takeDoffStart_stranger stranger]
  · rw [exec_doffEnd, whileHanded_handed _ active free, takeDoffEnd_stranger stranger]
  · rw [exec_doffAbort, whileHanded_handed _ active free, takeDoffAbort_stranger stranger]
  · rw [exec_doffQueued, whileHanded_handed _ active free, takeAnswer_stranger stranger]
  · rw [exec_doffGrant, whileHanded_handed _ active free, takeAnswer_stranger stranger]

/-- Settles O37: the three notices by mode on the state with the block busy; another station's are ignored. -/
theorem dofferStartsAndAborts : Obligations.DofferStartsAndAborts := by
  refine ⟨fun t s active free => ?doffer, fun t src s c active free other notice =>
    exec_stranger active free other notice⟩
  case doffer =>
    rw [exec_doffStart, exec_doffEnd, exec_doffAbort]
    simp only [whileHanded_handed _ active free]
    rw [← handed_cfg s t .frameDoff]
    refine ⟨fun mode => ⟨_, congrArg _ (takeDoffStart_begins mode), ?_⟩,
      fun mode => congrArg _ (takeDoffStart_refused mode), fun mode => ?aborts,
      fun doffing stall => congrArg _ (takeDoffAbort_ignored doffing stall),
      fun doffing stall full => congrArg _ (takeDoffEnd_ignored doffing stall full)⟩
    · exact changeMode_elsewhere _ _ (by decide)
    case aborts =>
      have waits := changeMode_elsewhere (s.handed t .frameDoff) (new := .fullWait) none (by decide)
      refine ⟨_, _, congrArg _ (takeDoffAbort_claims mode), waits, ?_⟩
      rw [State.claimed, doffClaim_of_fullWait waits, (changeMode_frame ..).2.1]
      rfl

/-! ## The answer wait, the claim pause and the forecast interval (R103, R108, R109) -/

section

variable {s : State}

/-- The two spellings of the last answer's bytes agree. -/
theorem answer_bytes (answer : ClaimAnswer) : answer.bytes = answer.codes := by cases answer <;> rfl

theorem claimNotice_eq (s : State) : s.claimNotice = s.doffClaim s.frame.claim.lastAnswer := by
  simp only [State.claimNotice, answer_bytes]
  rfl

theorem claimUnanswered_repeats (few : s.frame.claim.retries < 5) : s.claimUnanswered =
    ({ s with frame := { s.frame with claim := { s.frame.claim with
        retries := s.frame.claim.retries + 1, answerDue := some (s.clock + 10000000) } } } : State).hand
      (s.doffClaim s.frame.claim.lastAnswer) := by
  simp only [State.claimUnanswered, few, if_true, claimNotice_eq]
  rfl

theorem claimUnanswered_silent (many : 5 ≤ s.frame.claim.retries) : s.claimUnanswered =
    { s with
      frame := { s.frame with claim := { Claim.idle with pause := some (s.clock / 1000 + 60000) } }
      tally := { s.tally with opened := { s.tally.opened with counts := { s.tally.opened.counts with
        dofferSilent := min 255 (s.tally.opened.counts.dofferSilent + 1) } } } } := by
  simp only [State.claimUnanswered, Nat.not_lt.mpr many, if_false]
  rfl

/-- The conditions of R108 under which a claim is made, with no pause ahead. -/
def State.claimDue (s : State) : Prop :=
  s.frame.claim.state = .none ∧
    ((opensCalls s.frame.mode ∧ (s.cfg.claimFill ≤ s.drive.fill ∨ s.drive.measured ≤ s.cfg.dofferLead)) ∨
      s.frame.mode = .fullWait)

theorem claimDue_iff (free : s.frame.claim.pause = none) :
    (s.mayClaim && ((calling s.frame.mode && s.claimNear) || s.frame.mode == .fullWait)) = true ↔ s.claimDue := by
  have ahead : s.pauseAhead = false := by simp [State.pauseAhead, free]
  simp [State.claimDue, State.mayClaim, State.claimNear, ahead, calling_iff]

theorem claimAtTick_claims (free : s.frame.claim.pause = none) (due : s.claimDue) :
    s.claimAtTick = s.claimed .none := by
  rw [State.claimAtTick, if_pos ((claimDue_iff free).mpr due), makeClaim_claimed]

theorem claimAtTick_stands (free : s.frame.claim.pause = none) (stands : ¬s.claimDue) : s.claimAtTick = s :=
  if_neg (mt (claimDue_iff free).mp stands)

theorem exec_claimAnswerWait {t due : Nat} (active : s.start.phase = .active) (state : s.frame.claim.state = .claimed)
    (timer : s.frame.claim.answerDue = some due) (reached : due ≤ max s.clock t) :
    exec (.claimAnswerWait t) s = .next (s.later t).claimUnanswered := by
  have acts : exec (.claimAnswerWait t) s = execClaimAnswerWait t s := rfl
  simp [acts, execClaimAnswerWait, whileActive_later t _ active, state, timer, Machine.reached, reached]

theorem exec_claimPause {t m : Nat} (active : s.start.phase = .active) (timer : s.frame.claim.pause = some m)
    (reached : m ≤ max s.clock t / 1000) : exec (.claimPause t) s = .next
      ({ s.later t with frame := { s.frame with claim := { s.frame.claim with pause := none } } } : State).claimAtTick := by
  have acts : exec (.claimPause t) s = execClaimPause t s := rfl
  have ended : Machine.reached s.frame.claim.pause (s.later t).nowMs = true := by
    rw [timer]
    exact decide_eq_true reached
  rw [acts, execClaimPause, whileActive_later t _ active]
  simp only [later_frame, ended, if_true]
  rfl

theorem exec_forecastInterval {t due : Nat} (active : s.start.phase = .active) (timer : s.frame.forecastDue = some due)
    (reached : due ≤ max s.clock t) : exec (.forecastInterval t) s = .next (s.later t).buildForecast := by
  have acts : exec (.forecastInterval t) s = execForecastInterval t s := rfl
  simp [acts, execForecastInterval, whileActive_later t _ active, timer, Machine.reached, reached]

end

/-- Settles O39: an answer replaces the record, the answer wait repeats or gives up, the pause and the interval end. -/
theorem claimIsAnsweredRepeatedAndPaused : Obligations.ClaimIsAnsweredRepeatedAndPaused := by
  refine ⟨by decide, fun t n s active free => ?answers, fun t due s active state timer reached => ?wait,
    fun t m s active timer reached => ?pause, fun t due s active timer reached => ?interval⟩
  case answers =>
    rw [exec_doffQueued, exec_doffGrant]
    simp only [whileHanded_handed _ active free]
    rw [← handed_cfg s t .frameDoff]
    refine ⟨fun none => ⟨congrArg _ (takeAnswer_unclaimed none), congrArg _ (takeAnswer_unclaimed none)⟩,
      fun standing => ⟨?_, congrArg _ (takeAnswer_taken standing)⟩⟩
    rintro _ rfl
    rw [queuePosition_eq]
    exact congrArg _ (takeAnswer_taken standing)
  case wait =>
    rw [exec_claimAnswerWait active state timer reached]
    refine ⟨fun few => ?_, fun many => congrArg _ (claimUnanswered_silent many)⟩
    rw [claimUnanswered_repeats (s := s.later t) few]
    cases answer : s.frame.claim.lastAnswer <;> simp only [later_frame, answer] <;> rfl
  case pause =>
    rintro _ rfl
    rw [exec_claimPause active timer reached]
    exact ⟨fun claims => congrArg _ (claimAtTick_claims rfl claims),
      fun stands => congrArg _ (claimAtTick_stands rfl stands)⟩
  case interval => exact exec_forecastInterval active timer reached

end Sys2Proof.Machine
end

section
/-! The doff outlook and the trim (R105, R106). -/

namespace Sys2Proof.Machine

/-! ## The peers a frame yields to (R105, R106) -/

/-- R105: the peers that the outlook counts, each with its present forecast. -/
theorem outlookOf_iff (s : State) (p : Peer) (m : Nat) : s.outlookOf p = some m ↔
    ∃ f, p.forecast = some f ∧ p.kind = .frame ∧ p.group = some s.cfg.dofferGroup ∧
      s.clock / 1000 ≤ f.received + 3 * (60000 * s.cfg.forecastInterval) ∧ f.minutes ≠ 999 ∧
      m = (if f.mode = .fullStop ∨ f.mode = .fullWait ∨ f.mode = .doffing ∨ f.mode = .doffStall then 0
        else f.minutes - (s.clock / 1000 - f.received) / 60000) := by
  have standing : ∀ mode : FrameMode, doffStanding mode = true ↔
      mode = .fullStop ∨ mode = .fullWait ∨ mode = .doffing ∨ mode = .doffStall :=
    fun mode => by simp [doffStanding, doffRound, or_assoc]
  have fresh : ∀ received : Nat, received + 180000 * s.cfg.forecastInterval =
      received + 3 * (60000 * s.cfg.forecastInterval) := fun _ => by omega
  unfold State.outlookOf State.nowMs
  cases p.forecast with
  | none => simp
  | some f =>
    simp only [standing, fresh, Bool.and_eq_true, beq_iff_eq, decide_eq_true_eq, bne_iff_ne, Option.some.injEq,
      exists_eq_left', Option.ite_none_right_eq_some, and_assoc, eq_comm (a := m)]

/-- R106: which present forecasts a frame yields to, equal ones by station number. -/
theorem yields_iff (width strap natural station m : Nat) : yields width strap natural station m = true ↔
    natural < m + width ∧ m < natural + width ∧ (m < natural ∨ (m = natural ∧ station < strap)) := by
  simp only [yields, Bool.and_eq_true, Bool.or_eq_true, decide_eq_true_eq, beq_iff_eq, and_assoc]

theorem mem_yieldedTo (s : State) (natural m : Nat) : m ∈ s.yieldedTo natural ↔
    ∃ p ∈ s.line.peers, s.outlookOf p = some m ∧ yields s.cfg.slotWidth s.start.strap natural p.station m = true := by
  unfold State.yieldedTo
  rw [List.mem_filterMap]
  refine exists_congr fun p => and_congr_right fun _ => ?_
  cases s.outlookOf p with
  | none => simp
  | some k =>
    simp only [Option.ite_none_right_eq_some, Option.some.injEq]
    constructor
    · rintro ⟨yielded, rfl⟩
      exact ⟨rfl, yielded⟩
    · rintro ⟨rfl, yielded⟩
      exact ⟨yielded, rfl⟩

/-! ## The trim (R106) -/

/-- The greatest element of a list, and of what it begins with, is what the fold of `max` leaves. -/
theorem foldl_max_eq {last : Nat} : ∀ (l : List Nat) (start : Nat), start ≤ last → (∀ m ∈ l, m ≤ last) →
    (start = last ∨ last ∈ l) → l.foldl max start = last
  | [], start, _, _, found => found.resolve_right List.not_mem_nil
  | m :: l, start, low, bound, found => by
    obtain ⟨first, rest⟩ := List.forall_mem_cons.mp bound
    refine foldl_max_eq l (max start m) (Nat.max_le.mpr ⟨low, first⟩) rest ?_
    rcases found with rfl | found
    · exact .inl (Nat.max_eq_left first)
    · rcases List.mem_cons.mp found with rfl | found
      · exact .inl (Nat.max_eq_right low)
      · exact .inr found

theorem trimFor_nobody (c : Settings) (natural : Nat) : trimFor c natural [] = 0 := rfl

theorem trimFor_last {peers : List Nat} {last : Nat} (c : Settings) (natural : Nat) (yielded : last ∈ peers)
    (latest : ∀ m ∈ peers, m ≤ last) :
    trimFor c natural peers = min c.maxTrim (1000 - 1000 * natural / (last + c.slotWidth)) := by
  have some : peers.isEmpty = false := List.isEmpty_eq_false_iff.mpr (List.ne_nil_of_mem yielded)
  simp only [trimFor, some, foldl_max_eq peers 0 (Nat.zero_le _) latest (.inr yielded), Bool.false_eq_true, if_false]

/-- A natural forecast at or past the end of the latest slot asks for no trim. -/
theorem trim_past_slot {natural slot : Nat} (past : slot ≤ natural) (wide : 0 < slot) :
    1000 - 1000 * natural / slot = 0 :=
  Nat.sub_eq_zero_of_le ((Nat.le_div_iff_mul_le wide).mpr (Nat.mul_le_mul_left 1000 past))

/-- Settles O40: the peers by `outlookOf` and `yields`, the trim by the latest of their forecasts. -/
theorem trimFollowsTheDoffOutlook : Obligations.TrimFollowsTheDoffOutlook := by
  refine ⟨fun s natural m => ?peers, fun c natural peers => ⟨?nobody, fun last yielded latest => ?last⟩⟩
  case peers =>
    simp only [mem_yieldedTo, outlookOf_iff, yields_iff]
    refine exists_congr fun p => and_congr_right fun _ => ⟨?_, ?_⟩
    · rintro ⟨⟨f, forecast, kind, group, fresh, known, present⟩, ahead⟩
      exact ⟨f, forecast, kind, group, fresh, known, present, ahead⟩
    · rintro ⟨f, forecast, kind, group, fresh, known, present, ahead⟩
      exact ⟨⟨f, forecast, kind, group, fresh, known, present⟩, ahead⟩
  case nobody =>
    rintro rfl
    exact trimFor_nobody c natural
  case last =>
    have trim := trimFor_last c natural yielded latest
    refine ⟨trim, fun past wide => ?_⟩
    rw [trim, trim_past_slot past (by omega), Nat.min_zero]

end Sys2Proof.Machine
end

section
/-! A fresh-start HELLO: how it is heard, and what the restart of the doffer and of the rail makes of it (R111, R129, R134,
R185). -/

namespace Sys2Proof.Machine

/-! ## A notice that joins a queue (R167, R168) -/

theorem mem_of_joinQueue {n : Notice} {q q' : List Notice} (joined : joinQueue n q = some q') : n ∈ q' := by
  unfold joinQueue at joined
  split at joined
  · next replaced =>
    obtain ⟨m, waits, gone⟩ := List.any_eq_true.mp replaced
    cases joined
    exact List.mem_map.mpr ⟨m, waits, if_pos gone⟩
  · split at joined
    · cases joined
      simp
    · cases joined

theorem full_of_joinQueue {n : Notice} {q : List Notice} (dropped : joinQueue n q = none) : 12 ≤ q.length := by
  unfold joinQueue at dropped
  split at dropped
  · cases dropped
  · split at dropped
    · cases dropped
    · next full => exact Nat.not_lt.mp full

/-- An urgent notice that is handed stands in the urgent queue, unless that queue is full. -/
theorem mem_urgent_of_hand (s : State) {n : Notice} (urgent : n.urgent = true) :
    n ∈ (s.hand n).line.urgent ∨ 12 ≤ (s.hand n).line.urgent.length := by
  unfold State.hand
  rw [if_pos urgent]
  cases joined : joinQueue n s.line.urgent with
  | some q => exact .inl (mem_of_joinQueue joined)
  | none => exact .inr (full_of_joinQueue joined)

/-! ## The hearing of a HELLO (R175, R182, R185) -/

/-- The HELLO of a fresh start that a station sends (R185, R202). -/
def freshHelloOf (src kind group : Nat) : Notice :=
  { dst := 255, src := src, kind := some .hello, fresh := true, reference := 0,
    payload := [BitVec.ofNat 8 src, BitVec.ofNat 8 kind, BitVec.ofNat 8 group] }

/-- Learning a notice moves the peer table alone. -/
theorem learn_peers (s : State) (n : Notice) :
    s.learn n = { s with line := { s.line with peers := (s.learn n).line.peers } } := by
  unfold State.learn State.makePeer
  repeat' split
  all_goals rfl

/-- The state as it has heard a notice: isolation is over, and the sender is learned (R175, R182, R186). -/
def State.heard (s : State) (n : Notice) : State := s.hear.learn n

theorem heard_eq (s : State) (n : Notice) : s.heard n = { s with line := { s.line with
    peers := (s.heard n).line.peers, isolated := false, isolationStart := s.clock } } :=
  learn_peers s.hear n

section

variable (s : State) (n : Notice)

@[simp] theorem heard_start : (s.heard n).start = s.start := by rw [heard_eq]
@[simp] theorem heard_cfg : (s.heard n).cfg = s.cfg := by rw [heard_eq, State.cfg, State.cfg]
@[simp] theorem heard_clock : (s.heard n).clock = s.clock := by rw [heard_eq]
@[simp] theorem heard_frame : (s.heard n).frame = s.frame := by rw [heard_eq]
@[simp] theorem heard_roving : (s.heard n).roving = s.roving := by rw [heard_eq]
@[simp] theorem heard_table : (s.heard n).table = s.table := by rw [heard_eq]
@[simp] theorem heard_pieces : (s.heard n).pieces = s.pieces := by rw [heard_eq]
@[simp] theorem heard_drive : (s.heard n).drive = s.drive := by rw [heard_eq]
@[simp] theorem heard_urgent : (s.heard n).line.urgent = s.line.urgent := by rw [heard_eq]

end

/-- R175, R176: the HELLO of a fresh start of a peer is heard and acted on at once. -/
theorem goodNotice_freshHello {s : State} {src : Nat} (kind group : Nat) (low : 1 ≤ src) (high : src ≤ 239)
    (peer : src ≠ s.start.strap) :
    s.goodNotice (freshHelloOf src kind group) = (s.heard (freshHelloOf src kind group)).freshHello src := by
  have good : ¬(decide (src = 0) || decide (239 < src)) = true := by
    simp only [Bool.or_eq_true, decide_eq_true_eq]
    omega
  have toAll : (decide (255 = s.start.strap) || decide (255 = 255)) = true := by simp
  exact (if_neg good).trans ((if_neg peer).trans (if_pos toAll))

theorem exec_freshHello {s : State} {src : Nat} (t kind group : Nat) (low : 1 ≤ src) (high : src ≤ 239)
    (peer : src ≠ s.start.strap) (listens : s.underWay) : exec (.hello t src kind group true) s =
      .next (((s.later t).heard (freshHelloOf src kind group)).freshHello src) := by
  have acts : exec (.hello t src kind group true) s =
      .next (s.whileListening t (fun s => s.goodNotice (freshHelloOf src kind group))) := rfl
  rw [acts, whileListening_later t _ listens, goodNotice_freshHello (s := s.later t) kind group low high peer]

/-! ## The restart of the doffer (R111) -/

/-- R111: a station has started afresh: as the doffer it has a standing claim made again, the last answer kept. -/
def State.reclaimed (s : State) (src : Nat) : State :=
  if src = s.cfg.dofferStation ∧ s.frame.claim.state ≠ .none then s.claimed s.frame.claim.lastAnswer else s

theorem dofferRestarts_reclaimed (s : State) (src : Nat) :
    (if src = s.cfg.dofferStation then s.dofferRestarts else s) = s.reclaimed src := by
  unfold State.dofferRestarts State.reclaimed
  by_cases doffer : src = s.cfg.dofferStation
  · by_cases none : s.frame.claim.state = .none <;> simp [doffer, none, makeClaim_claimed]
  · simp [doffer]

/-- Everything that the restart of a station may claim again leaves of the other units. -/
theorem reclaimed_others (s : State) (src : Nat) :
    (s.reclaimed src).start = s.start ∧ (s.reclaimed src).clock = s.clock ∧ (s.reclaimed src).roving = s.roving ∧
      (s.reclaimed src).table = s.table ∧ (s.reclaimed src).pieces = s.pieces ∧ (s.reclaimed src).drive = s.drive := by
  unfold State.reclaimed State.claimed
  split <;> simp

theorem reclaimed_frame_stands {s : State} {src : Nat} (h : src ≠ s.cfg.dofferStation ∨ s.frame.claim.state = .none) :
    (s.reclaimed src).frame = s.frame := by
  have stands : ¬(src = s.cfg.dofferStation ∧ s.frame.claim.state ≠ .none) := fun both =>
    h.elim (· both.1) both.2
  rw [State.reclaimed, if_neg stands]

theorem reclaimed_frame_claims {s : State} {src : Nat} (doffer : src = s.cfg.dofferStation)
    (standing : s.frame.claim.state ≠ .none) : (s.reclaimed src).frame =
      { s.frame with claim := Claim.madeAt s.clock s.frame.claim.lastAnswer, trim := 0 } := by
  rw [State.reclaimed, if_pos ⟨doffer, standing⟩, State.claimed]
  simp

/-! ## The restart of the rail (R129, R134) -/

/-- R129, R134: a supply record at a restart of the rail; a RUN-OUT section is asked for again, with the answer wait ending
at a moment. -/
def SupplyRec.railRestarted (ends : Nat) (r : SupplyRec) : SupplyRec :=
  if r.state = .asked ∨ r.state = .acked ∨ r.state = .deferred then
    { r with state := .due, asks := 0, retryAt := none, eta := none }
  else if r.state = .runOut then { r with asks := 1, eta := none, retryAt := some ends }
  else r

/-- The RUN-OUT sections as they are asked for again, in the order of R123. -/
def State.runOutAsked (s : State) : List SupplyRec :=
  sortBy askBefore ((s.roving.recs.filter (fun r => r.state == .runOut)).map (fun r =>
    { r with asks := 1, eta := none, retryAt := some s.answerEnd }))

/-- The state with every record as the restart of the rail leaves it and the RUN-OUT sections asked for. -/
def State.railAsked (s : State) : State :=
  (s.editSupplies (SupplyRec.railRestarted s.answerEnd)).handAsks s.runOutAsked

/-- R129: a record as the restart of the rail frees it of the rail's answers, before the RUN-OUT sections are asked for. -/
def SupplyRec.railFreed (r : SupplyRec) : SupplyRec :=
  if r.state == .asked || r.state == .acked || r.state == .deferred then
    { r with state := .due, asks := 0, retryAt := none, eta := none }
  else r

/-- The two changes that the restart of the rail makes of a record, taken together. -/
theorem railRestarted_eq (ends : Nat) (r : SupplyRec) : r.railRestarted ends =
    if r.state == .runOut then { r.railFreed with asks := 1, eta := none, retryAt := some ends } else r.railFreed := by
  cases state : r.state <;> simp [SupplyRec.railRestarted, SupplyRec.railFreed, state]

theorem railFreed_runOut {r : SupplyRec} (state : r.state = .runOut) : r.railFreed = r := by
  simp [SupplyRec.railFreed, state]

theorem railFreed_creel (r : SupplyRec) : r.railFreed.creel = r.creel := by
  unfold SupplyRec.railFreed
  split <;> rfl

/-- R129, R134: the restart of the rail is one change of the records, the asks, and the start of the batch timer. -/
theorem railRestarts_eq {s : State} (nodup : (s.roving.recs.map (fun r => r.creel)).Nodup) :
    s.railRestarts = if s.railAsked.anyDue then s.railAsked.startBatch else s.railAsked := by
  have asked := askAgain_chosen s (fun r => r.state == .runOut) SupplyRec.railFreed
    (fun r => { r.railFreed with asks := 1, eta := none, retryAt := some s.answerEnd }) nodup railFreed_creel
    (fun _ => rfl)
  have listed : (s.roving.recs.filter (fun r => r.state == .runOut)).map (fun r =>
        { r.railFreed with asks := 1, eta := none, retryAt := some s.answerEnd }) =
      (s.roving.recs.filter (fun r => r.state == .runOut)).map (fun r =>
        { r with asks := 1, eta := none, retryAt := some s.answerEnd }) := by
    refine List.map_congr_left fun r member => ?_
    rw [railFreed_runOut (by simpa using (List.mem_filter.mp member).2)]
  rw [← funext (railRestarted_eq s.answerEnd), listed] at asked
  exact congrArg (fun u : State => if u.anyDue then u.startBatch else u) asked

theorem railAsked_recs (s : State) :
    s.railAsked.roving.recs = s.roving.recs.map (SupplyRec.railRestarted s.answerEnd) :=
  (handAsks_recs ..).1

theorem railAsked_batchDue (s : State) : s.railAsked.roving.batchDue = s.roving.batchDue := (handAsks_recs ..).2

theorem anyDue_iff (s : State) : s.anyDue = true ↔ ∃ r ∈ s.roving.recs, r.state = .due := by
  simp [State.anyDue]

/-- R122: with a batch delay above 0 the start of the batch timer moves the timer alone. -/
theorem startBatch_roving {s : State} (delay : s.cfg.batchDelay ≠ 0) : s.startBatch.roving =
    { s.roving with batchDue := some (s.roving.batchDue.getD (s.nowMs + 1000 * s.cfg.batchDelay)) } := by
  cases due : s.roving.batchDue with
  | some m =>
    have runs : s.startBatch = s := by simp [State.startBatch, due]
    rw [runs, Option.getD_some, ← due]
  | none => simp [State.startBatch, due, delay]

/-- R122, R129, R134: what the restart of the rail makes of the roving unit, with a batch delay above 0. -/
theorem railRestarts_roving {s : State} (delay : s.cfg.batchDelay ≠ 0)
    (nodup : (s.roving.recs.map (fun r => r.creel)).Nodup) :
    s.railRestarts.roving.recs = s.roving.recs.map (SupplyRec.railRestarted s.answerEnd) ∧
      s.railRestarts.roving.batchDue =
        if (s.roving.recs.map (SupplyRec.railRestarted s.answerEnd)).any (fun r => r.state == .due) then
          some (s.roving.batchDue.getD (s.nowMs + 1000 * s.cfg.batchDelay))
        else s.roving.batchDue := by
  have clock : s.railAsked.nowMs = s.nowMs := by simp [State.railAsked, State.nowMs]
  have cfg : s.railAsked.cfg = s.cfg := by simp [State.railAsked, State.cfg]
  rw [railRestarts_eq nodup, State.anyDue, railAsked_recs]
  split
  · rw [startBatch_roving (cfg ▸ delay), railAsked_recs, railAsked_batchDue, clock, cfg]
    exact ⟨rfl, rfl⟩
  · exact ⟨railAsked_recs s, railAsked_batchDue s⟩

/-! ## The answer (R185, R188) -/

/-- R188: in the listening period a HELLO is learned and no more. -/
theorem freshHello_listening {s : State} (src : Nat) (listening : s.start.phase = .listening) : s.freshHello src = s := by
  simp [State.freshHello, State.active, listening]

/-- R185: the HELLO that answers, as it stands in a queue. -/
def State.answerHello (s : State) : Notice :=
  { dst := 255, src := s.start.strap, kind := some .hello, fresh := false, reference := 0,
    payload := [BitVec.ofNat 8 s.start.strap, 1#8, BitVec.ofNat 8 s.cfg.dofferGroup] }

/-- R111, R129, R185: the doffer's claim, then the rail's asks, then the HELLO. -/
theorem freshHello_active {s : State} (src : Nat) (active : s.start.phase = .active) : s.freshHello src =
    (if src = s.cfg.railStation then (s.reclaimed src).railRestarts else s.reclaimed src).hand s.answerHello := by
  have acts : s.active = true := by simp [State.active, active]
  have answer : ∀ u : State, u.start = s.start → u.helloNotice false = s.answerHello := fun u start => by
    simp only [State.helloNotice, State.notice, State.cfg, State.answerHello, start]
    rfl
  unfold State.freshHello
  simp only [acts, dofferRestarts_reclaimed, if_true]
  rw [answer]
  split <;> simp [reclaimed_others]

theorem exec_freshHello_active {s : State} {src : Nat} (t kind group : Nat) (low : 1 ≤ src) (high : src ≤ 239)
    (peer : src ≠ s.start.strap) (active : s.start.phase = .active) : exec (.hello t src kind group true) s = .next
      ((if src = s.cfg.railStation then
          (((s.later t).heard (freshHelloOf src kind group)).reclaimed src).railRestarts
        else ((s.later t).heard (freshHelloOf src kind group)).reclaimed src).hand s.answerHello) := by
  have still : ((s.later t).heard (freshHelloOf src kind group)).start.phase = .active := by simpa using active
  have answer : ((s.later t).heard (freshHelloOf src kind group)).answerHello = s.answerHello := by
    simp [State.answerHello]
  rw [exec_freshHello t kind group low high peer (.inr active), freshHello_active src still, answer, heard_cfg,
    later_cfg]

/-- What the doffer's claim leaves as a HELLO is heard: the supply records, and the moment at which an answer wait that
begins now ends. -/
theorem reclaimed_heard (s : State) (t src kind group : Nat) :
    (((s.later t).heard (freshHelloOf src kind group)).reclaimed src).roving = s.roving ∧
      (((s.later t).heard (freshHelloOf src kind group)).reclaimed src).cfg = s.cfg ∧
      (((s.later t).heard (freshHelloOf src kind group)).reclaimed src).nowMs = max s.clock t / 1000 ∧
      (((s.later t).heard (freshHelloOf src kind group)).reclaimed src).answerEnd = max s.clock t / 1000 + 30000 := by
  obtain ⟨start, clock, roving, -⟩ := reclaimed_others ((s.later t).heard (freshHelloOf src kind group)) src
  simp [State.cfg, State.answerEnd, State.nowMs, Config.rovingWaitMs, start, clock, roving]

/-- The rail's restart and the answer leave the frame unit as the doffer's restart left it. -/
theorem restarted_frame (s : State) (rail : Prop) [Decidable rail] (hello : Notice) :
    ((if rail then s.railRestarts else s).hand hello).frame = s.frame := by
  split <;> simp

/-- Settles O54: the HELLO is heard, the doffer's claim and the rail's sections follow, and the HELLO answers. -/
theorem freshStartHelloIsAnswered : Obligations.FreshStartHelloIsAnswered := by
  refine ⟨?whole, fun t src kind group s low high peer _ _ delay nodup => ?parts⟩
  case whole =>
    intro t src kind group s heard low high peer _ _ active nodup hears
    obtain rfl : heard = (s.later t).heard (freshHelloOf src kind group) := hears
    obtain ⟨roving, -, -, ends⟩ := reclaimed_heard s t src kind group
    have acts := exec_freshHello_active t kind group low high peer active
    have restarts := railRestarts_eq (roving.symm ▸ nodup)
    refine ⟨heard_eq (s.later t) _, ((s.later t).heard (freshHelloOf src kind group)).reclaimed src,
      (((s.later t).heard (freshHelloOf src kind group)).reclaimed src).railAsked,
      (((s.later t).heard (freshHelloOf src kind group)).reclaimed src).runOutAsked, ?claimed, ?order, ?asked, ?answer⟩
    case claimed => simp only [State.reclaimed, heard_cfg, heard_frame, later_cfg, later_frame]
    case order =>
      unfold State.runOutAsked
      rw [roving, ends]
      exact sortBy_inAskOrder _
    case asked =>
      rw [State.railAsked, ends, State.editSupplies, roving]
      rfl
    case answer =>
      rintro _ rfl
      refine ⟨fun other => ?_, fun rail due => ?_, fun rail idle => ?_⟩
      · rw [acts, if_neg other]
        rfl
      · rw [acts, if_pos rail, restarts, if_pos ((anyDue_iff _).mpr due)]
        rfl
      · rw [acts, if_pos rail, restarts, if_neg (fun due => ?_)]
        · rfl
        · obtain ⟨r, member, state⟩ := (anyDue_iff _).mp due
          exact idle r member state
  case parts =>
    refine ⟨fun listening => ?learned, fun active => ?answered⟩
    case learned =>
      have still : ((s.later t).heard (freshHelloOf src kind group)).start.phase = .listening := by simpa using listening
      refine ⟨_, exec_freshHello t kind group low high peer (.inl listening), ?_⟩
      rw [freshHello_listening src still]
      simp
    case answered =>
      obtain ⟨roving, cfg, now, ends⟩ := reclaimed_heard s t src kind group
      obtain ⟨_, _, _, table, pieces, drive⟩ := reclaimed_others ((s.later t).heard (freshHelloOf src kind group)) src
      refine ⟨_, exec_freshHello_active t kind group low high peer active, mem_urgent_of_hand _ rfl, fun other => ?_,
        fun stands => ?_, fun doffer standing => ?_, fun rail => ?_, ?_⟩
      · rw [if_neg other]
        simpa using roving
      · rw [restarted_frame, reclaimed_frame_stands (by simpa using stands)]
        simp
      · rw [restarted_frame, reclaimed_frame_claims (by simpa using doffer) (by simpa using standing)]
        simp
      · obtain ⟨recs, batchDue⟩ := railRestarts_roving (cfg.symm ▸ delay) (roving.symm ▸ nodup)
        rw [roving, ends] at recs
        rw [roving, ends, now, cfg, ← recs] at batchDue
        rw [if_pos rail]
        simp only [hand_frame, batchDue]
        refine ⟨recs, ?_⟩
        cases due : s.roving.batchDue with
        | some m => simp
        | none => rfl
      · split <;> simp [table, pieces, drive]

end Sys2Proof.Machine
end

section
/-! The frame of every command: the units that it leaves as they stand (01 to 08, What each block owns). -/

namespace Sys2Proof.Machine

/-! ## What a command may leave behind -/

/-- From `s` to `s'` no unit has moved that the command `c` may not move. -/
structure State.Leaves (s : State) (c : Instr) (s' : State) : Prop where
  pending : s'.pending = s.pending
  start : begins c = false → s'.start = s.start
  clock : begins c = false → s.clock ≤ s'.clock
  pins : movesPins c = false → s'.pins = s.pins
  minutesBegun : begins c = false → (∀ t, c ≠ .frameMinute t) → s'.minutesBegun = s.minutesBegun
  chain : movesChain c = false → s'.chain = s.chain
  drive : movesDrive c = false → s'.drive = s.drive
  frame : movesFrame c = false → s'.frame = s.frame
  table : movesTable c = false → s'.table = s.table
  pieces : movesPieces c = false → s'.pieces = s.pieces
  roving : movesRoving c = false → s'.roving = s.roving
  silent : silent c = true → s'.line = s.line ∧ s'.tally = s.tally
  quiet : quiet c = true → s'.line = { s.line with busy := s'.line.busy } ∧ s'.tally = s.tally
  scanLine : ∀ t side, c = .scanTimerExpiry t side → s'.line = s.line
  minuteLine : ∀ t, c = .frameMinute t → s'.line = s.line
  lineTally : ((∃ t n, c = .startMark t n) ∨ (∃ t, c = .isolationTimeout t) ∨ (∃ t n, c = .peerHoldExpiry t n) ∨
      (∃ t, c = .firstAttempt t) ∨ (∃ t, c = .retryAttempt t) ∨ (∃ t, c = .noticeSent t)) → s'.tally = s.tally

/-- What two steps of one command leave, both together leave. -/
theorem State.Leaves.trans {c : Instr} {s u v : State} (first : s.Leaves c u) (second : u.Leaves c v) :
    s.Leaves c v where
  pending := second.pending.trans first.pending
  start h := (second.start h).trans (first.start h)
  clock h := Nat.le_trans (first.clock h) (second.clock h)
  pins h := (second.pins h).trans (first.pins h)
  minutesBegun h k := (second.minutesBegun h k).trans (first.minutesBegun h k)
  chain h := (second.chain h).trans (first.chain h)
  drive h := (second.drive h).trans (first.drive h)
  frame h := (second.frame h).trans (first.frame h)
  table h := (second.table h).trans (first.table h)
  pieces h := (second.pieces h).trans (first.pieces h)
  roving h := (second.roving h).trans (first.roving h)
  silent h := ⟨(second.silent h).1.trans (first.silent h).1, (second.silent h).2.trans (first.silent h).2⟩
  quiet h := by
    obtain ⟨line, tally⟩ := first.quiet h
    obtain ⟨line', tally'⟩ := second.quiet h
    refine ⟨line'.trans ?_, tally'.trans tally⟩
    rw [line]
  scanLine t side h := (second.scanLine t side h).trans (first.scanLine t side h)
  minuteLine t h := (second.minuteLine t h).trans (first.minuteLine t h)
  lineTally h := (second.lineTally h).trans (first.lineTally h)

/-- Part time alone may move under every command. -/
theorem withClock_leaves (c : Instr) {s : State} {now : Nat} (later : s.clock ≤ now) :
    s.Leaves c (s.withClock now) := by
  constructor <;> simp [later]

theorem reach_leaves (c : Instr) (s : State) (t : Nat) : s.Leaves c (s.reach t) := by
  unfold State.reach
  split
  · exact withClock_leaves c (Nat.le_max_left ..)
  · exact withClock_leaves c (Nat.le_refl s.clock)

/-- A command that moves an input may move the pins. -/
theorem withPins_leaves {c : Instr} (s : State) (p : Pins) (moves : movesPins c = true) :
    s.Leaves c (s.withPins p) := by
  constructor <;> simp [moves]

theorem takenBy_of_silent {c : Instr} (h : silent c = true) : takenBy c = none := by
  cases c <;> cases h <;> rfl

/-- The taking of a handed notice is neither silent nor a row of the scan or of the frame minute: it makes its block
busy. -/
theorem makeBusy_leaves {c : Instr} (s : State) (block : Block) (taken : takenBy c ≠ none) :
    s.Leaves c (s.makeBusy block) := by
  have loud : silent c = false := Bool.eq_false_iff.mpr fun h => taken (takenBy_of_silent h)
  have noScan : ∀ t side, c ≠ .scanTimerExpiry t side := by
    rintro t side rfl
    exact taken rfl
  have noMinute : ∀ t, c ≠ .frameMinute t := by
    rintro t rfl
    exact taken rfl
  constructor <;> simp [loud, noScan, noMinute]

/-- A command of the supply, the reset pin or a start may move every unit but the waiting commands and, with the
pin left alone, the pins. -/
theorem begins_leaves {c : Instr} {s s' : State} (start : begins c = true) (pending : s'.pending = s.pending)
    (pins : movesPins c = false → s'.pins = s.pins) : s.Leaves c s' := by
  constructor
  case pending => exact pending
  case pins => exact pins
  all_goals cases c <;> cases start <;> nofun

/-! ## The gates of a command -/

section

variable {c : Instr} {f : State → State} (acts : ∀ u : State, u.Leaves c (f u)) (s : State) (t : Nat)
include acts

theorem whileActive_leaves : s.Leaves c (s.whileActive t f) := by
  unfold State.whileActive
  split
  · exact (reach_leaves c s t).trans (acts _)
  · exact reach_leaves c s t

theorem whileListening_leaves : s.Leaves c (s.whileListening t f) := by
  unfold State.whileListening
  split
  · exact (reach_leaves c s t).trans (acts _)
  · exact reach_leaves c s t

theorem onChange_leaves (i : Input) (level : Bool) (moves : movesPins c = true) :
    s.Leaves c (s.onChange t i level f) := by
  rcases onChange_cases s t i level f with ⟨moment, h⟩ | ⟨moment, h⟩ | h <;> rw [h]
  · exact ((reach_leaves c s t).trans (withPins_leaves _ _ moves)).trans (acts _)
  · exact (reach_leaves c s t).trans (withPins_leaves _ _ moves)
  · exact reach_leaves c s t

theorem whileHanded_leaves (block : Block) (taken : takenBy c ≠ none) : s.Leaves c (s.whileHanded t block f) := by
  refine whileActive_leaves (fun u => ?_) s t
  split
  · exact (makeBusy_leaves u block taken).trans (acts _)
  · exact withClock_leaves c (Nat.le_refl u.clock)

end

/-! ## Operations that have no frame lemma yet -/

@[simp] theorem railArrives_frame (s : State) :
    s.railArrives.pending = s.pending ∧ s.railArrives.clock = s.clock ∧ s.railArrives.minutesBegun = s.minutesBegun ∧
      s.railArrives.start = s.start ∧ s.railArrives.pins = s.pins ∧ s.railArrives.chain = s.chain ∧
      s.railArrives.roving = s.roving := by
  unfold State.railArrives
  split <;> simp

@[simp] theorem doffDonePressed_frame (s : State) :
    s.doffDonePressed.pending = s.pending ∧ s.doffDonePressed.clock = s.clock ∧
      s.doffDonePressed.minutesBegun = s.minutesBegun ∧ s.doffDonePressed.start = s.start ∧
      s.doffDonePressed.pins = s.pins ∧ s.doffDonePressed.chain = s.chain ∧
      s.doffDonePressed.roving = s.roving := by
  unfold State.doffDonePressed
  split <;> simp

/-- R176: a notice that no block takes from the inbound queue moves no spindle, no call and no drive value. -/
theorem goodNotice_unqueued (s : State) {n : Notice} (unqueued : n.owner = none) :
    (s.goodNotice n).table = s.table ∧ (s.goodNotice n).pieces = s.pieces ∧ (s.goodNotice n).drive = s.drive := by
  simp only [State.goodNotice, State.accept, unqueued]
  repeat' split
  all_goals simp

/-- R185: and, unless it is the HELLO of a fresh start, nothing of the frame unit and the roving unit. -/
theorem goodNotice_plain (s : State) {n : Notice} (unqueued : n.owner = none) (plain : n.fresh = false) :
    (s.goodNotice n).frame = s.frame ∧ (s.goodNotice n).roving = s.roving := by
  simp only [State.goodNotice, State.accept, unqueued, plain, Bool.and_false, Bool.false_eq_true, if_false]
  repeat' split
  all_goals simp

/-- The notices of other blocks that stand in no queue: Hold, Hello, Patrol and Forecast. -/
def bringsUnqueued (c : Instr) : Bool :=
  match c with
  | .hold .. | .hello .. | .patrol .. | .forecast .. => true
  | _ => false

theorem goodNotice_leaves {c : Instr} (brings : bringsUnqueued c = true) (s : State) {n : Notice}
    (unqueued : n.owner = none) (plain : movesFrame c = false → n.fresh = false) : s.Leaves c (s.goodNotice n) := by
  obtain ⟨table, pieces, drive⟩ := goodNotice_unqueued s unqueued
  have frame := fun still => (goodNotice_plain s unqueued (plain still)).1
  have roving := fun still => (goodNotice_plain s unqueued (plain still)).2
  cases c <;> cases brings <;> constructor <;>
    simp_all [movesFrame, movesRoving, begins, handsOver, movesMode, silent, quiet]

@[simp] theorem startScan_frame (s : State) (side : Side) :
    (s.startScan side).pending = s.pending ∧ (s.startScan side).pins = s.pins := by
  unfold State.startScan
  split <;> simp

@[simp] theorem rovingBegins_frame (s : State) :
    s.rovingBegins.pending = s.pending ∧ s.rovingBegins.pins = s.pins := by
  simp only [State.rovingBegins]
  split <;> simp

@[simp] theorem becomeActive_frame (s : State) :
    s.becomeActive.pending = s.pending ∧ s.becomeActive.pins = s.pins := by
  simp [State.becomeActive]

@[simp] theorem endRead_frame (s : State) (image : List Byte) :
    (s.endRead image).pending = s.pending ∧ (s.endRead image).pins = s.pins := by
  simp only [State.endRead]
  split <;> exact ⟨rfl, rfl⟩

/-! ## Every command -/

theorem exec_begins_leaves {c : Instr} {s s' : State} (start : begins c = true) (h : exec c s = .next s') :
    s.Leaves c s' := by
  cases c <;> cases start <;> cases h
  case powerOn strap => exact begins_leaves rfl (by split <;> rfl) nofun
  case resetAssert t => exact begins_leaves rfl (by split <;> exact (reach_leaves (.resetAssert t) s t).pending) nofun
  case resetRelease strap => exact begins_leaves rfl (by split <;> rfl) nofun
  case supplyLost => exact begins_leaves rfl rfl nofun
  case configurationReadEnd t image =>
    obtain ⟨now, moment⟩ := reach_eq s t
    refine begins_leaves rfl ?_ fun _ => ?_ <;> split <;> simp [moment]
  case becomingActive t =>
    obtain ⟨now, moment⟩ := reach_eq s t
    refine begins_leaves rfl ?_ fun _ => ?_ <;> split <;> simp [moment]

/-- A command that begins nothing acts behind one of the gates, and its act leaves what the frame lemmas of its
operations say. -/
theorem exec_acts_leaves {c : Instr} {s s' : State} (start : begins c = false) (h : exec c s = .next s') :
    s.Leaves c s' := by
  cases c <;> cases start <;> cases h
  case' scanTimerExpiry | moduleFrameReceived | sensePassEnd | drivePassEnd | updateTick | callRepeat |
      withdrawnUntaken | piecingTimeout | verifyWindowCloses | restartGrace | positionTimeout | doffingTimeout |
      forecastInterval | claimAnswerWait | claimPause | batchTimer | rovingAnswerWait | etaExpiry | deferralEnd |
      blockBusyEnds | ownHoldExpiry | firstAttempt | collision | jamEnd | retryAttempt | noticeSent =>
    refine whileActive_leaves (fun u => ?_) s _
  case' frontRollerPulse | rollerStopsTurning | receiveFrameEnd | hold | hello | patrol | forecast | peerHoldExpiry |
      isolationTimeout | startMark =>
    refine whileListening_leaves (fun u => ?_) s _
  case hold | hello | patrol | forecast => exact goodNotice_leaves rfl u rfl (by simp [movesFrame])
  case' unlock | take | done | doffStart | doffEnd | doffAbort | doffQueued | doffGrant | rovingAck | rovingDefer |
      rovingLaid | shiftChange | tallyQuery =>
    refine whileHanded_leaves (fun u => ?_) s _ _ nofun
  case' sideClearPress | runPermitRise | runPermitFall | stopButton | driveFault | atDoffPosition | doffDoneButton |
      driveFaultClears | atDoffPositionClears | buttonRelease =>
    refine onChange_leaves (fun u => ?_) s _ _ _ rfl
  case' frameMinute t | pwmPeriodStart t =>
    refine (reach_leaves _ s t).trans ?_
    generalize s.reach t = u
    dsimp only
  all_goals
    repeat' split
    all_goals constructor <;> simp [begins, handsOver, movesMode, movesPins, movesChain, movesDrive, movesFrame,
      movesTable, movesPieces, movesRoving, silent, quiet]

theorem exec_leaves {c : Instr} {s s' : State} (h : exec c s = .next s') : s.Leaves c s' := by
  cases start : begins c with
  | true => exact exec_begins_leaves start h
  | false => exact exec_acts_leaves start h

/-- Settles O56: the fields of `State.Leaves`, for every command. -/
theorem commandsLeaveOtherUnitsAlone : Obligations.CommandsLeaveOtherUnitsAlone := by
  intro c s s' h
  have leaves := exec_leaves h
  exact ⟨leaves.pending, fun start => ⟨leaves.start start, leaves.clock start⟩, leaves.pins, leaves.minutesBegun,
    leaves.chain, leaves.drive, leaves.frame, leaves.table, leaves.pieces, leaves.roving, leaves.silent, leaves.quiet,
    leaves.scanLine, leaves.minuteLine, leaves.lineTally⟩

end Sys2Proof.Machine
end

section
/-! The supply records after a start with a good configuration (R138, R139). -/

namespace Sys2Proof.Machine

/-! ## The end of a good configuration read (R191, R193, R195) -/

/-- R195: the start goes on from a read that is over and good, with what each block makes of the configuration. -/
theorem exec_configurationReadEnd_good {s : State} {t : Nat} {presented : List Byte}
    (reading : s.start.phase = .reading) (ended : s.start.phaseStart + 10560 ≤ max s.clock t)
    (good : configurationGood s.start.strap (imageOf presented) = true) :
    exec (.configurationReadEnd t presented) s = .next ((s.later t).beginListening (imageOf presented)) := by
  have acts : exec (.configurationReadEnd t presented) s = execConfigurationReadEnd t presented s := rfl
  have moment : s.reach t = s.later t := reach_later t (by simp [reading]) (by simp [reading])
  have complete : ((s.later t).start.phase == .reading &&
      decide ((s.later t).start.phaseStart + Config.readTime ≤ (s.later t).clock)) = true :=
    (Bool.and_eq_true _ _).mpr ⟨beq_iff_eq.mpr reading, decide_eq_true ended⟩
  rw [acts, execConfigurationReadEnd, moment]
  exact congrArg Host.Outcome.next ((if_pos complete).trans (if_pos good))

theorem sameCounts_iff (u : StartUnit) (c : Settings) :
    u.sameCounts c = true ↔ u.keptA = c.sectionsA ∧ u.keptB = c.sectionsB := by
  simp [StartUnit.sameCounts]

/-! ## The records (R138, R139) -/

/-- R138: every configured section has a fresh record when the counts have changed. -/
theorem startRoving_changed {s : State} {c : Settings} (scanning : Nat)
    (changed : ¬(s.start.keptA = c.sectionsA ∧ s.start.keptB = c.sectionsB)) :
    (s.startRoving c scanning).recs =
      (sectionNumbers c).map (fun k => SupplyRec.fresh k s.drive.d (10 * c.laidMetres)) :=
  if_neg (mt (sameCounts_iff _ _).mp changed)

/-- R139: with the same counts every record is kept as a restart leaves it. -/
theorem startRoving_same {s : State} {c : Settings} (scanning : Nat) (sideA : s.start.keptA = c.sectionsA)
    (sideB : s.start.keptB = c.sectionsB) : (s.startRoving c scanning).recs =
      s.roving.recs.map (fun r => r.restarted s.drive.d c.draft scanning) :=
  if_pos ((sameCounts_iff _ _).mpr ⟨sideA, sideB⟩)

/-- R139: the state that a retained record takes, by the state it had and its estimate. -/
def SupplyRec.stateAtStart (r : SupplyRec) (remaining : Nat) : SupplyState :=
  if r.state = .none then .none else if r.state ≠ .runOut then .due else if remaining = 0 then .runOut else .none

theorem restarted_eq (r : SupplyRec) (d : DCount) (draft scanning : Nat) : r.restarted d draft scanning =
    { creel := r.creel, state := r.stateAtStart (r.estimate d draft), laidMark := r.laidMark,
      laidLength := r.laidLength, remaining := r.estimate d draft,
      time := if r.estimate d draft = 0 then some 0 else none, asks := 0,
      retryAt := if r.stateAtStart (r.estimate d draft) = .runOut then some scanning else none, eta := none,
      breaks := [] } := by
  unfold SupplyRec.restarted SupplyRec.stateAtStart
  cases state : r.state <;> rfl

/-- Settles O8: the roving unit of `beginListening`, by whether the section counts are the retained ones. -/
theorem startSetsSupplyRecords : Obligations.StartSetsSupplyRecords := by
  rintro t presented s reading ended good c rfl
  refine ⟨_, exec_configurationReadEnd_good reading ended good, rfl, rfl, fun changed => ?fresh,
    fun sideA sideB => ?kept⟩
  case fresh =>
    have recs := startRoving_changed (s := s.later t) (((s.later t).clock + Config.listenTime) / 1000) changed
    refine ⟨?_, fun r member => ?_⟩
    · refine (congrArg _ recs).trans ?_
      simp [sectionNumbers, SupplyRec.fresh, Function.comp_def]
    · obtain ⟨k, -, rfl⟩ := List.mem_map.mp (recs ▸ member)
      exact ⟨rfl, rfl, rfl, rfl, rfl, rfl, rfl, rfl, rfl⟩
  case kept =>
    refine (startRoving_same (s := s.later t) _ sideA sideB).trans (List.map_congr_left fun r _ => ?_)
    exact restarted_eq ..

end Sys2Proof.Machine
end

section
/-! The rail's answers and a laying (R33, R126, R128, R129, R136). -/

namespace Sys2Proof.Machine

/-! ## What the rail's notices make of a record (R126, R128, R136) -/

/-- R126: a record named by a ROVING-ACK, by the table of R126. -/
theorem acked_eq (r : SupplyRec) (minutes now : Nat) : r.acked minutes now =
    if r.state = .asked ∨ r.state = .deferred then
      { r with state := .acked, eta := some ⟨minutes, now⟩, retryAt := none, asks := 0 }
    else if r.state = .acked then { r with eta := some ⟨minutes, now⟩ }
    else if r.state = .runOut then { r with eta := some ⟨minutes, now⟩, retryAt := none, asks := 0 }
    else r := by
  unfold SupplyRec.acked
  cases state : r.state <;> rfl

/-- R128: a deferral of 0 minutes lasts one. -/
theorem deferralMinutes_eq (minutes : Nat) : (if minutes = 0 then 1 else minutes) = max 1 minutes := by
  split <;> omega

/-- R128: a record named by a ROVING-DEFER, by the table of R128. -/
theorem deferTo_eq (r : SupplyRec) (minutes now : Nat) : r.deferTo minutes now =
    if r.state = .asked ∨ r.state = .acked ∨ r.state = .deferred then
      { r with state := .deferred, retryAt := some (now + 60000 * max 1 minutes), eta := none, asks := 0 }
    else if r.state = .runOut then
      { r with retryAt := some (now + 60000 * max 1 minutes), eta := none, asks := 0 }
    else r := by
  unfold SupplyRec.deferTo
  rw [deferralMinutes_eq]
  cases state : r.state <;> rfl

/-- R136: the laid length in dm is held within 100..9,000 m; 0 stands for the configured one. -/
theorem laidLengthOf_eq (c : Settings) (metres : Nat) : 10 * laidLengthOf c metres =
    if metres = 0 then 10 * c.laidMetres
    else if metres < 100 then 1000 else if 9000 < metres then 90000 else 10 * metres := by
  unfold laidLengthOf
  repeat' split
  all_goals omega

/-! ## The notices that the roving unit takes (R126, R128, R129, R136) -/

section

variable {s : State}

/-- R126, R128: a change of the records that a notice names. -/
theorem editSupplies_named (s : State) (sections : List Nat) (f : SupplyRec → SupplyRec) :
    s.editSupplies (fun r => if sections.contains r.creel then f r else r) =
      { s with roving := { s.roving with recs := s.roving.recs.map (fun r =>
        if r.creel ∉ sections then r else f r) } } := by
  refine congrArg (fun recs => s.withRoving { s.roving with recs := recs }) (List.map_congr_left fun r _ => ?_)
  by_cases named : r.creel ∈ sections <;> simp [named]

theorem takeRovingAck_rail (minutes : Nat) (sections : List Nat) :
    s.takeRovingAck s.cfg.railStation minutes sections = { s with roving := { s.roving with
      recs := s.roving.recs.map (fun r => if r.creel ∉ sections then r else r.acked minutes s.nowMs) } } :=
  (if_pos rfl).trans (editSupplies_named s sections _)

theorem takeRovingDefer_rail (minutes : Nat) (sections : List Nat) :
    s.takeRovingDefer s.cfg.railStation minutes sections = { s with roving := { s.roving with
      recs := s.roving.recs.map (fun r => if r.creel ∉ sections then r else r.deferTo minutes s.nowMs) } } :=
  (if_pos rfl).trans (editSupplies_named s sections _)

theorem supply_eq_none {creel : Nat} (unknown : ∀ r ∈ s.roving.recs, r.creel ≠ creel) : s.supply creel = none := by
  simpa [State.supply] using unknown

/-- R136: a laying of a section that is not configured changes nothing. -/
theorem takeRovingLaid_unknown {creel : Nat} (metres : Nat) (unknown : ∀ r ∈ s.roving.recs, r.creel ≠ creel) :
    s.takeRovingLaid s.cfg.railStation creel metres = s := by
  have lays : s.takeRovingLaid s.cfg.railStation creel metres = s.laySection creel metres := if_pos rfl
  rw [lays, State.laySection, supply_eq_none unknown]

/-- R33, R136: a laying resets the section's record, and then returns its RUN-OUT spindles. -/
theorem takeRovingLaid_known {creel : Nat} (metres : Nat) (known : ∃ r ∈ s.roving.recs, r.creel = creel) :
    s.takeRovingLaid s.cfg.railStation creel metres =
      (s.editSupply creel (fun r => r.laid s.drive.d (laidLengthOf s.cfg metres))).laySpindles creel := by
  have lays : s.takeRovingLaid s.cfg.railStation creel metres = s.laySection creel metres := if_pos rfl
  cases found : s.supply creel with
  | none =>
    obtain ⟨r, member, creel'⟩ := known
    exact absurd creel' (by simpa using List.find?_eq_none.mp found r member)
  | some r => rw [lays, State.laySection, found]

/-- R136: what a laying makes of the roving unit. -/
theorem laying_roving (s : State) (creel metres : Nat) :
    ((s.editSupply creel (fun r => r.laid s.drive.d metres)).laySpindles creel).roving =
      { s.roving with recs := s.roving.recs.map (fun r =>
        if r.creel = creel then
          { creel := creel, state := .none, laidMark := s.drive.d, laidLength := 10 * metres,
            remaining := 10 * metres, time := none, asks := 0, retryAt := none, eta := none, breaks := [] }
        else r) } := by
  refine congrArg (fun recs => { s.roving with recs := recs }) (List.map_congr_left fun r _ => ?_)
  split
  · next laid =>
    subst laid
    rfl
  · rfl

/-- R33: which record of a spindle the laying of a section leaves. -/
theorem spindle_laySpindles (s : State) (creel n : Nat) : (s.laySpindles creel).spindle n =
    (s.spindle n).map (fun r => if s.sectionOf n = creel ∧ r.state = .runOut then
      { r with state := .down, notBefore := some (s.second + s.cfg.settleTime) } else r) := by
  rw [State.laySpindles, spindle_editSpindles]
  refine congrArg (fun f => (s.spindle n).map f) (funext fun r => ?_)
  by_cases laid : s.sectionOf n = creel ∧ r.state = .runOut
  · have enters : r.enter .down = { r with state := .down } := by
      rw [SpindleRec.enter, laid.2]
      rfl
    have chosen : (decide (s.sectionOf n = creel) && r.state == .runOut) = true :=
      (Bool.and_eq_true _ _).mpr ⟨decide_eq_true laid.1, beq_iff_eq.mpr laid.2⟩
    rw [if_pos chosen, if_pos laid, enters]
  · simp only [laid, Bool.and_eq_true, decide_eq_true_eq, beq_iff_eq, if_false]

/-- R129: a notice of the rail from another station changes nothing but the block that took it. -/
theorem exec_rovingStranger {t src : Nat} {c : Instr} (active : s.start.phase = .active)
    (free : s.canHand t .roving) (other : src ≠ s.cfg.railStation)
    (notice : (∃ eta sections, c = .rovingAck t src eta sections) ∨
      (∃ minutes sections, c = .rovingDefer t src minutes sections) ∨
      ∃ creel metres, c = .rovingLaid t src creel metres) : exec c s = .next (s.handed t .roving) := by
  rcases notice with ⟨eta, sections, rfl⟩ | ⟨minutes, sections, rfl⟩ | ⟨creel, metres, rfl⟩
  all_goals exact congrArg Host.Outcome.next ((whileHanded_handed _ active free).trans (if_neg other))

end

section

variable {s : State} {t : Nat} (active : s.start.phase = .active) (free : s.canHand t .roving)

include active free

/-- The three notices of the rail, as the roving unit takes them from it. -/
theorem exec_rovingAck (minutes : Nat) (sections : List Nat) :
    exec (.rovingAck t s.cfg.railStation minutes sections) s =
      .next ((s.handed t .roving).takeRovingAck s.cfg.railStation minutes sections) :=
  congrArg Host.Outcome.next (whileHanded_handed _ active free)

theorem exec_rovingDefer (minutes : Nat) (sections : List Nat) :
    exec (.rovingDefer t s.cfg.railStation minutes sections) s =
      .next ((s.handed t .roving).takeRovingDefer s.cfg.railStation minutes sections) :=
  congrArg Host.Outcome.next (whileHanded_handed _ active free)

theorem exec_rovingLaid (creel metres : Nat) :
    exec (.rovingLaid t s.cfg.railStation creel metres) s =
      .next ((s.handed t .roving).takeRovingLaid s.cfg.railStation creel metres) :=
  congrArg Host.Outcome.next (whileHanded_handed _ active free)

end

/-- Settles O44: the tables of R126 and R128 record by record, the laid record and its spindles, and other stations. -/
theorem railAnswersAndLayings : Obligations.RailAnswersAndLayings := by
  refine ⟨?answers, fun t creel metres s active free => ⟨fun unknown => ?unknown, ?laid⟩,
    fun t src s c active free other notice => exec_rovingStranger active free other notice⟩
  case answers =>
    rintro t minutes sections s now active free rfl
    rw [exec_rovingAck active free, exec_rovingDefer active free, ← handed_cfg s t .roving, takeRovingAck_rail,
      takeRovingDefer_rail]
    simp only [acked_eq, deferTo_eq]
    exact ⟨rfl, rfl⟩
  case unknown =>
    rw [exec_rovingLaid active free, ← handed_cfg s t .roving]
    exact congrArg Host.Outcome.next (takeRovingLaid_unknown metres unknown)
  case laid =>
    rintro known _ rfl
    have lays := exec_rovingLaid active free creel metres
    rw [← handed_cfg s t .roving, takeRovingLaid_known (s := s.handed t .roving) metres known] at lays
    refine ⟨_, lays, ?roving, fun n r found => ?spindle, rfl, rfl, rfl, rfl, rfl, rfl⟩
    case roving =>
      rw [← laidLengthOf_eq]
      exact laying_roving (s.handed t .roving) creel _
    case spindle =>
      have before : ((s.handed t .roving).editSupply creel
        (fun r => r.laid s.drive.d (laidLengthOf s.cfg metres))).spindle n = some r := found
      exact (spindle_laySpindles _ creel n).trans (congrArg _ before)

end Sys2Proof.Machine
end

section
/-! The batch timer, and the notices that a number of sections is divided into (R118, R122 to R124, R202). -/

namespace Sys2Proof.Machine

/-! ## The division into notices (R123) -/

theorem chunks_flatten {α : Type} {size : Nat} (pos : 0 < size) : ∀ (fuel : Nat) (l : List α), l.length ≤ fuel →
    (chunks size fuel l).flatten = l
  | 0, l, short => (List.length_eq_zero_iff.mp (Nat.le_zero.mp short)).symm
  | _ + 1, [], _ => rfl
  | fuel + 1, x :: xs, short => by
    rw [chunks, List.flatten_cons, chunks_flatten pos fuel _ (by simp at short ⊢; omega), List.take_append_drop]

theorem chunks_length_pos {α : Type} {size : Nat} (pos : 0 < size) : ∀ (fuel : Nat) (l : List α),
    ∀ part ∈ chunks size fuel l, 1 ≤ part.length
  | 0, _, _, member => nomatch member
  | _ + 1, [], _, member => nomatch member
  | fuel + 1, x :: xs, part, member => by
    rcases List.mem_cons.mp member with rfl | later
    · simp only [List.length_take, List.length_cons]
      omega
    · exact chunks_length_pos pos fuel _ part later

/-- The parts are as many as it takes, the last one perhaps short. -/
theorem length_chunks {α : Type} {size : Nat} (pos : 0 < size) : ∀ (fuel : Nat) (l : List α), l.length ≤ fuel →
    (chunks size fuel l).length = (l.length + (size - 1)) / size
  | 0, l, short => by
    rw [List.length_eq_zero_iff.mp (Nat.le_zero.mp short)]
    exact (Nat.div_eq_of_lt (by rw [List.length_nil]; omega)).symm
  | _ + 1, [], _ => (Nat.div_eq_of_lt (by rw [List.length_nil]; omega)).symm
  | fuel + 1, x :: xs, short => by
    rw [chunks, List.length_cons, length_chunks pos fuel _ (by simp at short ⊢; omega), List.length_drop]
    rcases Nat.lt_or_ge (x :: xs).length size with less | more
    · rw [Nat.div_eq_of_lt (by omega), Nat.div_eq_of_lt_le (k := 1) (by simp; omega) (by omega)]
    · rw [show (x :: xs).length + (size - 1) = (x :: xs).length - size + (size - 1) + size by omega,
        Nat.add_div_right _ pos]

theorem chunks_single {α : Type} {size : Nat} {l : List α} (nonempty : l ≠ []) (few : l.length ≤ size) :
    chunks size l.length l = [l] := by
  cases l with
  | nil => exact absurd rfl nonempty
  | cons x xs =>
    rw [List.length_cons, chunks, List.take_of_length_le few, List.drop_eq_nil_of_le few]
    cases xs.length <;> rfl

/-! ## One ROVING-ASK (R123, R124, R202) -/

theorem askTime_eq (r : SupplyRec) : r.askTime = if r.state = .runOut then 0 else r.time.getD 65535 := by
  simp [SupplyRec.askTime]

theorem flatMap_wordField_length (l : List SupplyRec) (f : SupplyRec → Nat) :
    (l.flatMap (fun r => wordField (f r))).length = 2 * l.length := by
  induction l with
  | nil => rfl
  | cons r l ih => rw [List.flatMap_cons, List.length_append, ih, List.length_cons, wordField]; simp; omega

/-- Sorting by number puts records in ascending number. -/
theorem sortBy_byCreel (recs : List SupplyRec) :
    (sortBy creelBefore recs).Pairwise (fun a b => a.creel ≤ b.creel) := by
  refine sortBy_pairwise (R := fun a b : SupplyRec => a.creel ≤ b.creel) (fun _ _ _ => Nat.le_trans) (fun a b h => ?_)
    (fun a b h => ?_) _
  · exact of_decide_eq_true h
  · exact Nat.le_of_not_le (of_decide_eq_false h)

/-- The mask stands behind the sender's number, the times behind the mask. -/
theorem askPayload_parts (strap : Nat) (recs : List SupplyRec) :
    (askPayload strap recs).take 1 = [BitVec.ofNat 8 strap] ∧
      (askPayload strap recs).drop 7 = (sortBy creelBefore recs).flatMap (fun r => wordField r.askTime) ∧
      (askPayload strap recs).length = 7 + 2 * recs.length := by
  refine ⟨rfl, ?_, ?_⟩
  · rw [askPayload, List.drop_append_of_le_length (by simp [byteField]), List.drop_eq_nil_of_le (by simp [byteField]),
      List.nil_append]
  · rw [askPayload, List.length_append, flatMap_wordField_length, (sortBy_perm ..).length_eq]
    simp [byteField]

/-- The ROVING-ASK for some sections, with the present ask sequence (R118, R124). -/
def State.askFor (s : State) (part : List SupplyRec) : Notice :=
  { dst := s.cfg.railStation, src := s.start.strap, kind := some .rovingAsk, fresh := false,
    reference := s.roving.askSeq, payload := askPayload s.start.strap part }

/-- R118: the ask sequence moves once for a notice, 65,535 to 1. -/
theorem handAsk_eq (s : State) (part : List SupplyRec) : s.handAsk part =
    ({ s with roving := { s.roving with
      askSeq := if s.roving.askSeq < 65535 then s.roving.askSeq + 1 else 1 } } : State).hand (s.askFor part) := rfl

theorem askFor_urgent (s : State) (part : List SupplyRec) : (s.askFor part).urgent = true := rfl

/-- A ROVING-ASK replaces no notice that waits (R168). -/
theorem joinQueue_askFor (s : State) (part : List SupplyRec) {q : List Notice} (free : q.length < 12) :
    joinQueue (s.askFor part) q = some (q ++ [s.askFor part]) := by
  have keeps : q.any (fun m => (s.askFor part).replaces m) = false := List.any_eq_false.mpr fun m _ => by
    simp [Notice.replaces, State.askFor]
  rw [joinQueue, keeps]
  exact if_pos free

theorem handAsk_urgent {s : State} (part : List SupplyRec) (free : s.line.urgent.length < 12) :
    (s.handAsk part).line.urgent = s.line.urgent ++ [s.askFor part] := by
  rw [handAsk_eq, State.hand, if_pos (askFor_urgent s part)]
  simp only [joinQueue_askFor s part free, withLine_line]

@[simp] theorem handAsk_routine (s : State) (part : List SupplyRec) :
    (s.handAsk part).line.routine = s.line.routine := by
  rw [handAsk_eq, State.hand, if_pos (askFor_urgent s part)]
  split <;> simp

theorem handAsk_roving (s : State) (part : List SupplyRec) : (s.handAsk part).roving =
    { s.roving with askSeq := if s.roving.askSeq < 65535 then s.roving.askSeq + 1 else 1 } := by
  rw [handAsk_eq, (hand_frame ..).2.2.2.2.2.2.2.2.2.2.2]

/-! ## Several (R118, R123) -/

theorem handAsks_eq (s : State) (recs : List SupplyRec) :
    s.handAsks recs = (chunks 12 recs.length recs).foldl State.handAsk s := rfl

@[simp] theorem handAsks_routine (s : State) (recs : List SupplyRec) :
    (s.handAsks recs).line.routine = s.line.routine :=
  foldl_keeps (fun s : State => s.line.routine) _ handAsk_routine _ _

/-- Up to 12 sections go in one notice. -/
theorem handAsks_single (s : State) {recs : List SupplyRec} (nonempty : recs ≠ []) (few : recs.length ≤ 12) :
    s.handAsks recs = s.handAsk recs := by
  rw [handAsks_eq, chunks_single nonempty few]
  rfl

/-- R118: the ask sequence of 1..65,535 after a number of notices. -/
theorem foldl_handAsk_roving (parts : List (List SupplyRec)) : ∀ s : State, 1 ≤ s.roving.askSeq →
    s.roving.askSeq ≤ 65535 → (parts.foldl State.handAsk s).roving =
      { s.roving with askSeq := (s.roving.askSeq - 1 + parts.length) % 65535 + 1 } := by
  induction parts with
  | nil =>
    intro s low high
    have still : (s.roving.askSeq - 1) % 65535 + 1 = s.roving.askSeq := by omega
    exact congrArg (fun n => { s.roving with askSeq := n }) still.symm
  | cons part parts ih =>
    intro s low high
    rw [List.foldl_cons, ih _ (by rw [handAsk_roving]; dsimp only; split <;> omega)
      (by rw [handAsk_roving]; dsimp only; split <;> omega), handAsk_roving]
    refine congrArg (fun n => { s.roving with askSeq := n }) ?_
    simp only [List.length_cons]
    split <;> omega

/-! ## The end of the batch timer (R122, R123) -/

/-- R123: what the batch gathers of the sections. -/
def State.gathered (s : State) : List SupplyRec :=
  s.roving.recs.filter (fun r => r.state == .due ||
    (r.state == .none && r.time.any (fun x => decide (x ≤ s.cfg.railLead + s.cfg.lookahead))))

theorem gathers_eq (s : State) (r : SupplyRec) : s.gathers r = (r.state == .due ||
    (r.state == .none && r.time.any (fun x => decide (x ≤ s.cfg.railLead + s.cfg.lookahead)))) := by
  unfold State.gathers
  cases r.time <;> rfl

theorem filter_gathers (s : State) : s.roving.recs.filter s.gathers = s.gathered :=
  congrArg (fun p => s.roving.recs.filter p) (funext (gathers_eq s))

theorem mem_gathered {s : State} {r : SupplyRec} (member : r ∈ s.roving.recs) :
    r ∈ s.gathered ↔ s.gathers r = true := by
  rw [← filter_gathers]
  simp [member]

theorem gathered_state {s : State} {r : SupplyRec} (member : r ∈ s.gathered) : r.state = .due ∨ r.state = .none := by
  have chosen := (List.mem_filter.mp member).2
  simp only [Bool.or_eq_true, Bool.and_eq_true, beq_iff_eq] at chosen
  exact chosen.imp_right And.left

theorem gathered_ne_nil {s : State} (due : ∃ r ∈ s.roving.recs, r.state = .due) : s.gathered ≠ [] := by
  obtain ⟨r, member, state⟩ := due
  exact List.ne_nil_of_mem (List.mem_filter.mpr ⟨member, by simp [state]⟩)

/-- The state with the batch timer stopped. -/
def State.batchStopped (s : State) : State := { s with roving := { s.roving with batchDue := none } }

theorem batchAsked_keeps (s : State) (recs : List SupplyRec) :
    (s.batchStopped.handAsks recs).table = s.table ∧ (s.batchStopped.handAsks recs).pieces = s.pieces ∧
      (s.batchStopped.handAsks recs).drive = s.drive ∧ (s.batchStopped.handAsks recs).frame = s.frame := by
  simp [State.batchStopped]

theorem batchRunsOut_idle {s : State} (idle : ∀ r ∈ s.roving.recs, r.state ≠ .due) :
    s.batchRunsOut = s.batchStopped := by
  have none : ¬s.batchStopped.anyDue = true := fun due =>
    let ⟨r, member, state⟩ := (anyDue_iff _).mp due
    idle r member state
  exact if_neg none

/-- R123: the gathered sections are asked for in the order of R123 and become ASKED. -/
theorem batchRunsOut_asks {s : State} (due : ∃ r ∈ s.roving.recs, r.state = .due) (asked : State)
    (asks : asked = s.batchStopped.handAsks (sortBy askBefore s.gathered)) :
    s.batchRunsOut = { asked with roving := { asked.roving with recs := s.roving.recs.map (fun r =>
      if r ∈ s.gathered then { r with state := .asked, asks := 1, retryAt := some (s.clock / 1000 + 30000) }
      else r) } } := by
  have waits : s.batchStopped.anyDue = true := (anyDue_iff _).mpr due
  have gathers : s.batchStopped.roving.recs.filter s.batchStopped.gathers = s.gathered := filter_gathers s
  have runs : s.batchRunsOut = (s.batchStopped.handAsks (sortBy askBefore
      (s.batchStopped.roving.recs.filter s.batchStopped.gathers))).editSupplies (fun r =>
        if s.gathers r then { r with state := .asked, asks := 1, retryAt := some (s.clock / 1000 + 30000) } else r) :=
    if_pos waits
  have recs : asked.roving.recs = s.roving.recs := asks ▸ (handAsks_recs ..).1
  rw [runs, gathers, ← asks, State.editSupplies, recs]
  refine congrArg (fun recs => asked.withRoving { asked.roving with recs := recs })
    (List.map_congr_left fun r member => ?_)
  simp only [mem_gathered member]

/-! ## The start of the batch timer (R122) -/

theorem startBatch_runs {s : State} (runs : ∃ m, s.roving.batchDue = some m) : s.startBatch = s := by
  obtain ⟨m, timer⟩ := runs
  simp [State.startBatch, timer]

theorem startBatch_noDelay {s : State} (idle : s.roving.batchDue = none) (delay : s.cfg.batchDelay = 0) :
    s.startBatch = s.batchRunsOut := by
  simp [State.startBatch, idle, delay]

theorem startBatch_delay {s : State} (idle : s.roving.batchDue = none) (delay : s.cfg.batchDelay ≠ 0) :
    s.startBatch = { s with roving := { s.roving with
      batchDue := some (s.clock / 1000 + 1000 * s.cfg.batchDelay) } } := by
  simp only [State.startBatch, idle, delay, if_false]
  rfl

/-- BATCH_TIMER acts once its moment has come. -/
theorem exec_batchTimer {s : State} {t m : Nat} (active : s.start.phase = .active)
    (timer : s.roving.batchDue = some m) (due : m ≤ max s.clock t / 1000) :
    exec (.batchTimer t) s = .next (s.later t).batchRunsOut := by
  have moment : reached (s.later t).roving.batchDue (s.later t).nowMs = true := by
    rw [later_roving, timer]
    exact decide_eq_true due
  exact congrArg Host.Outcome.next ((whileActive_later t _ active).trans (if_pos moment))

/-- R124, R202: one ROVING-ASK goes out for up to 12 sections, none of them RUN-OUT. -/
theorem handAsks_notice {s : State} {recs : List SupplyRec} (nonempty : recs ≠ []) (few : recs.length ≤ 12)
    (free : s.line.urgent.length < 12) (states : ∀ r ∈ recs, r.state ≠ .runOut) :
    ∃ (ask : Notice) (listed : List SupplyRec),
      (s.handAsks recs).line.urgent = s.line.urgent ++ [ask] ∧ ask.kind = some .rovingAsk ∧
        ask.dst = s.cfg.railStation ∧ ask.src = s.start.strap ∧ ask.reference = s.roving.askSeq ∧ listed.Perm recs ∧
        listed.Pairwise (fun a b => a.creel ≤ b.creel) ∧ ask.payload.take 1 = [BitVec.ofNat 8 s.start.strap] ∧
        (∀ k, 1 ≤ k → k ≤ 48 → (ask.lists k ↔ ∃ r ∈ recs, r.creel = k)) ∧
        ask.payload.drop 7 = listed.flatMap (fun r => wordField (r.time.getD 65535)) := by
  obtain ⟨first, times, -⟩ := askPayload_parts s.start.strap recs
  have sorted := sortBy_perm creelBefore recs
  refine ⟨s.askFor recs, sortBy creelBefore recs, ?_, rfl, rfl, rfl, rfl, sorted, sortBy_byCreel recs, first,
    askPayload_lists _ _ _ rfl, times.trans (congrArg List.flatten (List.map_congr_left fun r member => ?_))⟩
  · rw [handAsks_single s nonempty few, handAsk_urgent recs free]
  · rw [askTime_eq, if_neg (states r (sorted.mem_iff.mp member))]

/-- Settles O42: the end of the batch timer and its start, and the notices by the parts of 12. -/
theorem batchTimerAsksForDueSections : Obligations.BatchTimerAsksForDueSections := by
  refine ⟨fun t m s active timer due => ⟨exec_batchTimer active timer due, fun idle => ?idle, ?asks⟩, ?runsOut,
    fun s => ⟨startBatch_runs, startBatch_noDelay, startBatch_delay⟩, handAsks_eq, fun s part _ => ?notice,
    fun s recs low high => ⟨?sequence, chunks_flatten (by decide) _ _ (Nat.le_refl _), fun part member =>
      ⟨chunks_length_pos (by decide) _ _ part member, chunks_length_le _ _ _ part member⟩⟩⟩
  case idle =>
    rw [exec_batchTimer active timer due, batchRunsOut_idle (s := s.later t) idle]
    rfl
  case asks =>
    rintro waits _ rfl
    obtain ⟨table, pieces, drive, frame⟩ := batchAsked_keeps (s.later t) (sortBy askBefore (s.later t).gathered)
    refine ⟨_, (exec_batchTimer active timer due).trans (congrArg _ (batchRunsOut_asks (s := s.later t) waits _ rfl)),
      (handAsks_recs ..).2, rfl, handAsks_routine .., table, pieces, drive, frame, fun few free => ?ask⟩
    case ask =>
      have order := sortBy_perm askBefore (s.later t).gathered
      have listed : sortBy askBefore (s.later t).gathered ≠ [] := fun none =>
        gathered_ne_nil waits (List.Perm.nil_eq (none ▸ order)).symm
      obtain ⟨ask, listed, urgent, kind, dst, src, reference, perm, sorted, first, mask, times⟩ :=
        handAsks_notice (s := (s.later t).batchStopped) listed (order.length_eq ▸ few) free (fun r member => by
          rcases gathered_state (order.mem_iff.mp member) with state | state <;> simp [state])
      refine ⟨ask, listed, urgent, kind, dst, src, reference, perm.trans order, sorted, first, fun k low high => ?_,
        times⟩
      refine (mask k low high).trans (exists_congr fun r => and_congr_left fun _ => order.mem_iff)
  case runsOut =>
    rintro s _ _ rfl rfl
    exact ⟨batchRunsOut_idle, fun due =>
      ⟨_, _, sortBy_inAskOrder _, rfl, batchRunsOut_asks due _ rfl⟩⟩
  case notice =>
    obtain ⟨first, times, length⟩ := askPayload_parts s.start.strap part
    refine ⟨s.askFor part, _, handAsk_eq s part, rfl, rfl, rfl, rfl, rfl, sortBy_perm .., sortBy_byCreel part, length,
      first, askPayload_lists _ _ _ rfl, ?_⟩
    simp only [← askTime_eq]
    exact times
  case sequence =>
    rw [handAsks_eq, foldl_handAsk_roving _ _ low high, length_chunks (by decide) _ _ (Nat.le_refl _)]

end Sys2Proof.Machine
end

section
/-! An update tick and the supply records (R119 to R122, R132, R133). -/

namespace Sys2Proof.Machine

/-! ## A record at a tick (R119 to R121, R132, R133) -/

theorem timeToRunOut_eq (remaining : Nat) (state : SupplyState) (rate : Option Nat) (draft : Nat) :
    timeToRunOut remaining state rate draft = if remaining = 0 ∨ state = .runOut then some 0
      else rate.map (fun v => min 65534 (remaining * draft / (100 * v))) := by
  unfold timeToRunOut
  cases rate <;> simp

/-- R119, R120: a record with both estimates computed. -/
theorem estimated_eq (r : SupplyRec) (d : DCount) (draft : Nat) (rate : Option Nat) : r.estimated d draft rate =
    { r with
      remaining := r.laidLength - (d - r.laidMark).toNat * 100 / draft
      time := if r.laidLength - (d - r.laidMark).toNat * 100 / draft = 0 ∨ r.state = .runOut then some 0
        else rate.map (fun v => min 65534 ((r.laidLength - (d - r.laidMark).toNat * 100 / draft) * draft /
          (100 * v))) } := by
  unfold SupplyRec.estimated
  dsimp only
  rw [timeToRunOut_eq]
  rfl

/-- R120: nothing left is no time left. -/
theorem estimated_empty (r : SupplyRec) (d : DCount) (draft : Nat) (rate : Option Nat)
    (empty : (r.estimated d draft rate).remaining = 0) : (r.estimated d draft rate).time = some 0 :=
  (timeToRunOut_eq ..).trans (if_pos (.inl empty))

/-- R121: what makes a section in NONE due, by the lead of the rail. -/
def SupplyRec.falls (r : SupplyRec) (lead : Nat) : Prop :=
  r.state = .none ∧ (r.remaining ≤ r.laidLength / 10 ∨ ∃ m, r.time = some m ∧ m ≤ lead)

theorem fallsDue_iff (s : State) (r : SupplyRec) : s.fallsDue r = true ↔ r.falls s.cfg.railLead := by
  unfold State.fallsDue SupplyRec.falls
  cases r.time <;> simp [or_comm]

/-- R121: a record after the tick has judged whether it is due. -/
def State.judgedRec (s : State) (r : SupplyRec) : SupplyRec := if s.fallsDue r then { r with state := .due } else r

/-- R132: a section whose estimate has just become 0. -/
def SupplyRec.hasRunOut (r : SupplyRec) : Bool := r.remaining == 0 && r.state != .runOut

/-- R132, R133: a record after the run-outs of a tick; a section that was NONE or DUE is asked for, with the answer wait
ending at a moment. -/
def SupplyRec.ranOut (ends : Nat) (r : SupplyRec) : SupplyRec :=
  if r.hasRunOut then
    if r.state.asksAtRunOut then
      { r with state := .runOut, time := some 0, asks := 1, retryAt := some ends, eta := none }
    else { r with state := .runOut, time := some 0 }
  else r

/-! ## Run-outs and their asks, for any records (R132, R133) -/

/-- R133: a run-out changes the section's record, and then its spindles and their calls. -/
theorem becomeRunOut_eq (s : State) (creel : Nat) : s.becomeRunOut creel =
    ({ s with roving := { s.roving with recs := s.roving.recs.map (fun r =>
      if r.creel = creel then { r with state := .runOut, time := some 0 } else r) } } : State).runOutSpindles creel :=
  rfl

theorem becomeRunOut_roving (s : State) (creel : Nat) : (s.becomeRunOut creel).roving =
    { s.roving with recs := s.roving.recs.map (fun r =>
      if r.creel = creel then { r with state := .runOut, time := some 0 } else r) } := by
  simp [becomeRunOut_eq]

/-- Several sections run out one after another: the records are those of one change of them all. -/
theorem foldl_becomeRunOut_roving (ran : List SupplyRec) : ∀ s : State,
    (ran.foldl (fun u r => u.becomeRunOut r.creel) s).roving = { s.roving with recs := s.roving.recs.map (fun r =>
      if r.creel ∈ ran.map (fun q => q.creel) then { r with state := .runOut, time := some 0 } else r) } := by
  induction ran with
  | nil => simp
  | cons q ran ih =>
    intro s
    rw [List.foldl_cons, ih, becomeRunOut_roving]
    refine congrArg (fun recs => { s.roving with recs := recs }) ?_
    rw [List.map_map]
    refine List.map_congr_left fun r _ => ?_
    by_cases first : r.creel = q.creel <;> simp [first]

theorem foldl_becomeRunOut_start (ran : List SupplyRec) (s : State) :
    (ran.foldl (fun u r => u.becomeRunOut r.creel) s).start = s.start :=
  foldl_keeps (fun s : State => s.start) _ (by simp) _ _

theorem foldl_becomeRunOut_clock (ran : List SupplyRec) (s : State) :
    (ran.foldl (fun u r => u.becomeRunOut r.creel) s).clock = s.clock :=
  foldl_keeps (fun s : State => s.clock) _ (by simp) _ _

/-- R133: the records once the sections of some numbers are asked for at their run-out. -/
def State.runOutAskedRecs (s : State) (creels : List Nat) : List SupplyRec := s.roving.recs.map (fun r =>
  if r.creel ∈ creels then { r with asks := 1, retryAt := some (s.clock / 1000 + 30000), eta := none } else r)

/-- R133: the notices for those sections are in ascending number. -/
theorem askRunOut_eq (s : State) (creels : List Nat) : s.askRunOut creels =
    ({ s with roving := { s.roving with recs := s.runOutAskedRecs creels } } : State).handAsks
      (sortBy creelBefore ((s.runOutAskedRecs creels).filter (fun r => decide (r.creel ∈ creels)))) := by
  unfold State.askRunOut State.suppliesAmong State.editSupplies
  simp only [List.contains_eq_mem, decide_eq_true_eq]
  rfl

theorem askRunOut_roving (s : State) (creels : List Nat) :
    (s.askRunOut creels).roving.recs = s.runOutAskedRecs creels ∧
      (s.askRunOut creels).roving.batchDue = s.roving.batchDue := by
  rw [askRunOut_eq]
  exact handAsks_recs ..

/-! ## The roving unit's work of a tick (R119 to R122, R132, R133) -/

/-- R119, R120: the records with both estimates computed. -/
def State.estimatedRecs (s : State) : List SupplyRec :=
  s.roving.recs.map (fun r => r.estimated s.drive.d s.cfg.draft s.drive.rate)

/-- R132: the sections that run out at a tick, in ascending number. -/
def State.runningOut (s : State) : List SupplyRec :=
  sortBy creelBefore (s.estimatedRecs.filter SupplyRec.hasRunOut)

/-- R132, R133: the state once the sections that ran out have been asked for. -/
def State.tickAsked (s : State) : State :=
  (s.runningOut.foldl (fun u r => u.becomeRunOut r.creel)
      ({ s with roving := { s.roving with recs := s.estimatedRecs } } : State)).askRunOut
    ((s.runningOut.filter (fun r => r.state == .none || r.state == .due)).map (fun r => r.creel))

/-- R121: the state with every record judged. -/
def State.tickJudged (s : State) : State := { s.tickAsked with roving := { s.tickAsked.roving with
  recs := s.tickAsked.roving.recs.map s.tickAsked.judgedRec } }

/-- R122: the run-outs and their asks come first, the start of the batch timer last (log 20). -/
theorem rovingTick_eq (s : State) : s.rovingTick =
    if s.tickAsked.roving.recs.any s.tickAsked.fallsDue then s.tickJudged.startBatch else s.tickJudged := rfl

theorem tickAsked_cfg (s : State) : s.tickAsked.cfg = s.cfg := by
  simp [State.cfg, State.tickAsked, foldl_becomeRunOut_start]

theorem tickAsked_clock (s : State) : s.tickAsked.clock = s.clock := by
  simp [State.tickAsked, foldl_becomeRunOut_clock]

theorem tickFalls_iff (s : State) : s.tickAsked.roving.recs.any s.tickAsked.fallsDue = true ↔
    ∃ r ∈ s.tickAsked.roving.recs, r.falls s.cfg.railLead := by
  simp only [List.any_eq_true, fallsDue_iff, tickAsked_cfg]

theorem judgedRec_eq (s : State) (r : SupplyRec) :
    (r.falls s.cfg.railLead → s.tickAsked.judgedRec r = { r with state := .due }) ∧
      (¬r.falls s.cfg.railLead → s.tickAsked.judgedRec r = r) := by
  rw [← tickAsked_cfg, ← fallsDue_iff]
  exact ⟨fun falls => if_pos falls, fun stays => if_neg stays⟩

/-! ## With numbers that name one record each -/

theorem asksAtRunOut_iff (state : SupplyState) : state.asksAtRunOut = true ↔ state = .none ∨ state = .due := by
  simp [SupplyState.asksAtRunOut]

/-- A section is asked for at a tick if it ran out there from NONE or DUE. -/
theorem mem_runningOut {s : State} (nodup : (s.estimatedRecs.map (fun r => r.creel)).Nodup) {r : SupplyRec}
    (member : r ∈ s.estimatedRecs) (choose : SupplyRec → Bool) :
    r.creel ∈ (s.runningOut.filter choose).map (fun q => q.creel) ↔ r.hasRunOut = true ∧ choose r = true := by
  have perm : (s.runningOut.filter choose).Perm (s.estimatedRecs.filter (fun r => choose r && r.hasRunOut)) := by
    rw [← List.filter_filter]
    exact (sortBy_perm ..).filter _
  rw [(perm.map _).mem_iff, ← List.contains_iff_mem, contains_chosen _ nodup member, Bool.and_eq_true, and_comm]

/-- R132, R133: the records once the sections that ran out have been asked for. -/
theorem tickAsked_roving {s : State} (nodup : (s.estimatedRecs.map (fun r => r.creel)).Nodup) :
    s.tickAsked.roving.recs = s.estimatedRecs.map (SupplyRec.ranOut (s.clock / 1000 + 30000)) ∧
      s.tickAsked.roving.batchDue = s.roving.batchDue := by
  obtain ⟨recs, batchDue⟩ := askRunOut_roving (s.runningOut.foldl (fun u r => u.becomeRunOut r.creel)
      ({ s with roving := { s.roving with recs := s.estimatedRecs } } : State))
    ((s.runningOut.filter (fun r => r.state == .none || r.state == .due)).map (fun r => r.creel))
  rw [State.runOutAskedRecs, foldl_becomeRunOut_roving] at recs
  rw [foldl_becomeRunOut_roving] at batchDue
  refine ⟨recs.trans ?_, batchDue⟩
  rw [List.map_map, foldl_becomeRunOut_clock]
  refine List.map_congr_left fun r member => ?_
  have ran := mem_runningOut nodup member (fun _ => true)
  rw [List.filter_eq_self.mpr (fun _ _ => rfl)] at ran
  have asks := mem_runningOut nodup member (fun r => r.state == .none || r.state == .due)
  unfold SupplyRec.ranOut
  by_cases out : r.hasRunOut = true
  · simp only [Function.comp, if_pos (ran.mpr ⟨out, rfl⟩), asks, out, true_and, if_true]
    rfl
  · simp only [Function.comp, if_neg (mt ran.mp (out ·.1)), if_neg (mt asks.mp (out ·.1)), if_neg out]

theorem ranOut_creel (ends : Nat) (r : SupplyRec) : (r.ranOut ends).creel = r.creel := by
  unfold SupplyRec.ranOut
  repeat' split
  all_goals rfl

theorem ranOut_state (ends : Nat) (r : SupplyRec) :
    (r.ranOut ends).state = if r.hasRunOut then .runOut else r.state := by
  unfold SupplyRec.ranOut
  repeat' split
  all_goals rfl

theorem hasRunOut_iff (r : SupplyRec) : r.hasRunOut = true ↔ r.remaining = 0 ∧ r.state ≠ .runOut := by
  simp [SupplyRec.hasRunOut]

/-- R121, R132, R133: a record whose estimates are computed, after the run-outs of the tick and the judging. -/
theorem judgedRec_ranOut (s : State) (ends : Nat) {r : SupplyRec} (empty : r.remaining = 0 → r.time = some 0) :
    s.judgedRec (r.ranOut ends) =
      if r.remaining = 0 ∧ r.state ≠ .runOut then
        (if r.state = .none ∨ r.state = .due then
          { r with state := .runOut, asks := 1, retryAt := some ends, eta := none }
         else { r with state := .runOut })
      else if r.state = .none ∧ (r.remaining ≤ r.laidLength / 10 ∨
          r.time.any (fun m => decide (m ≤ s.cfg.railLead)) = true) then { r with state := .due }
      else r := by
  by_cases out : r.hasRunOut = true
  · have stays : ¬s.fallsDue (r.ranOut ends) = true := fun falls => by
      have state := ((fallsDue_iff ..).mp falls).1
      rw [ranOut_state, if_pos out] at state
      cases state
    have time := empty ((hasRunOut_iff r).mp out).1
    rw [State.judgedRec, if_neg stays, if_pos ((hasRunOut_iff r).mp out), SupplyRec.ranOut, if_pos out, ← time]
    simp only [asksAtRunOut_iff]
  · have falls : s.fallsDue r = true ↔ r.state = .none ∧ (r.remaining ≤ r.laidLength / 10 ∨
        r.time.any (fun m => decide (m ≤ s.cfg.railLead)) = true) := by
      rw [fallsDue_iff, SupplyRec.falls]
      simp [Option.any_eq_true]
    rw [if_neg (mt (hasRunOut_iff r).mpr out), SupplyRec.ranOut, if_neg out, State.judgedRec]
    simp only [falls]

/-- R119 to R121, R132, R133: what a tick makes of a record. -/
def State.tickedRec (s : State) (r : SupplyRec) : SupplyRec :=
  s.tickAsked.judgedRec ((r.estimated s.drive.d s.cfg.draft s.drive.rate).ranOut (s.clock / 1000 + 30000))

theorem judgedRec_creel (s : State) (r : SupplyRec) : (s.judgedRec r).creel = r.creel := by
  unfold State.judgedRec
  split <;> rfl

theorem tickedRec_creel (s : State) (r : SupplyRec) : (s.tickedRec r).creel = r.creel :=
  (judgedRec_creel ..).trans (ranOut_creel ..)

/-- A record that a tick finds in NONE is DUE after it exactly if it falls due there. -/
theorem tickedRec_due_iff (s : State) {r : SupplyRec} (state : r.state = .none) :
    (s.tickedRec r).state = .due ↔ s.tickAsked.fallsDue
      ((r.estimated s.drive.d s.cfg.draft s.drive.rate).ranOut (s.clock / 1000 + 30000)) = true := by
  unfold State.tickedRec State.judgedRec
  split
  · next falls => simp [falls]
  · next stays =>
    refine iff_of_false ?_ stays
    rw [ranOut_state]
    split
    · simp
    · simp [SupplyRec.estimated, state]

section

variable {s : State} (nodup : (s.roving.recs.map (fun r => r.creel)).Nodup)

include nodup

theorem nodup_estimatedRecs : (s.estimatedRecs.map (fun r => r.creel)).Nodup := by
  have same : s.estimatedRecs.map (fun r => r.creel) = s.roving.recs.map (fun r => r.creel) :=
    List.map_map.trans rfl
  exact same ▸ nodup

theorem tickAsked_recs : s.tickAsked.roving.recs = s.roving.recs.map (fun r =>
    (r.estimated s.drive.d s.cfg.draft s.drive.rate).ranOut (s.clock / 1000 + 30000)) :=
  (tickAsked_roving (nodup_estimatedRecs nodup)).1.trans List.map_map

theorem tickJudged_recs : s.tickJudged.roving.recs = s.roving.recs.map s.tickedRec := by
  refine (congrArg (List.map s.tickAsked.judgedRec) (tickAsked_recs nodup)).trans List.map_map

/-- R121: whether a section falls due at the tick, read off the records before and after it. -/
theorem tickFalls_eq : s.tickAsked.roving.recs.any s.tickAsked.fallsDue =
    (s.roving.recs.map s.tickedRec).any (fun r => r.state == .due &&
      s.roving.recs.any (fun o => o.creel == r.creel && o.state == .none)) := by
  rw [tickAsked_recs nodup, List.any_map, List.any_map, Bool.eq_iff_iff, List.any_eq_true, List.any_eq_true]
  refine exists_congr fun r => and_congr_right fun member => ?_
  have before : s.roving.recs.any (fun o => o.creel == (s.tickedRec r).creel && o.state == .none) = true ↔
      r.state = .none := by
    simp only [List.any_eq_true, Bool.and_eq_true, beq_iff_eq, tickedRec_creel]
    refine ⟨fun ⟨o, found, creel, state⟩ => ?_, fun state => ⟨r, member, rfl, state⟩⟩
    exact eq_of_key (fun r : SupplyRec => r.creel) nodup found member creel ▸ state
  simp only [Function.comp, Bool.and_eq_true, beq_iff_eq, before]
  refine ⟨fun falls => ?_, fun ⟨due, state⟩ => (tickedRec_due_iff s state).mp due⟩
  have none := ((fallsDue_iff ..).mp falls).1
  rw [ranOut_state] at none
  split at none
  · cases none
  · exact ⟨(tickedRec_due_iff s none).mpr falls, none⟩

/-- R119 to R122, R132, R133: what a tick makes of the roving unit, with a batch delay above 0. -/
theorem rovingTick_roving (delay : s.cfg.batchDelay ≠ 0) :
    s.rovingTick.roving.recs = s.roving.recs.map s.tickedRec ∧ s.rovingTick.roving.batchDue =
      if s.tickAsked.roving.recs.any s.tickAsked.fallsDue then
        some (s.roving.batchDue.getD (s.clock / 1000 + 1000 * s.cfg.batchDelay))
      else s.roving.batchDue := by
  have cfg : s.tickJudged.cfg = s.cfg := tickAsked_cfg s
  have clock : s.tickJudged.nowMs = s.clock / 1000 := congrArg (fun t => t / 1000) (tickAsked_clock s)
  have batchDue : s.tickJudged.roving.batchDue = s.roving.batchDue :=
    (tickAsked_roving (nodup_estimatedRecs nodup)).2
  rw [rovingTick_eq]
  split
  · rw [startBatch_roving (cfg.symm ▸ delay), cfg, clock, batchDue]
    exact ⟨tickJudged_recs nodup, rfl⟩
  · exact ⟨tickJudged_recs nodup, batchDue⟩

end

/-! ## The command (R43) -/

/-- The state as the roving unit finds it at the end of a tick's work (log 9). -/
def State.beforeSupply (s : State) : State :=
  s.deliveryTick.trimTick.speedTick.claimAtTick.forecastIfMoved.walk

theorem beforeSupply_keeps (s : State) : s.beforeSupply.roving = s.roving ∧ s.beforeSupply.cfg = s.cfg ∧
    s.beforeSupply.clock = s.clock ∧ s.beforeSupply.drive.d = s.drive.d := by
  have trim : s.deliveryTick.trimTick.drive.d = s.drive.d := rfl
  have speed : s.deliveryTick.trimTick.speedTick.drive.d = s.deliveryTick.trimTick.drive.d := by
    rw [State.speedTick]
    split <;> rfl
  simp [State.beforeSupply, State.cfg, speed, trim]

theorem exec_updateTick {s : State} {t due : Nat} (active : s.start.phase = .active)
    (timer : s.drive.tickDue = some due) (reached : due ≤ max s.clock t) :
    exec (.updateTick t) s = .next ((s.later t).restartTick due).tickWork := by
  refine congrArg Host.Outcome.next ((whileActive_later t _ active).trans ?_)
  simp only [later_drive, timer, later_clock, reached, if_true]

/-- The roving unit's work of a tick finds its own records, the settings and D as the command found them. -/
theorem exec_updateTick_supply {s : State} {t due : Nat} (active : s.start.phase = .active)
    (timer : s.drive.tickDue = some due) (reached : due ≤ max s.clock t) :
    ∃ u : State, exec (.updateTick t) s = .next u.rovingTick ∧ u.roving = s.roving ∧ u.cfg = s.cfg ∧
      u.clock = max s.clock t ∧ u.drive.d = s.drive.d :=
  ⟨_, exec_updateTick active timer reached, beforeSupply_keeps _⟩

/-- Settles O24: the records and the batch timer of a tick, and the order of its work. -/
theorem updateTickJudgesSupplies : Obligations.UpdateTickJudgesSupplies := by
  refine ⟨fun t due s active timer reached delay nodup => ?tick, ?work, becomeRunOut_eq, fun s creels => ?asks⟩
  case tick =>
    obtain ⟨u, acts, roving, cfg, clock, d⟩ := exec_updateTick_supply active timer reached
    have drive : u.rovingTick.drive = u.drive := by simp
    rw [← roving] at nodup
    obtain ⟨recs, batchDue⟩ := rovingTick_roving nodup (cfg.symm ▸ delay)
    rw [tickFalls_eq nodup, ← recs] at batchDue
    refine ⟨_, u.drive.rate, acts, by rw [drive], by rw [drive, d], ?_, ?_⟩
    · rw [recs, roving]
      refine List.map_congr_left fun r _ => ?_
      rw [State.tickedRec, judgedRec_ranOut _ _ (estimated_empty _ _ _ _), estimated_eq, tickAsked_cfg, cfg, clock, d]
    · rw [batchDue, roving, cfg, clock]
      cases s.roving.batchDue with
      | none => rfl
      | some m => simp
  case work =>
    rintro s _ rfl _ rfl
    have estimated : s.estimatedRecs = s.roving.recs.map _ := List.map_congr_left fun r _ => estimated_eq r _ _ _
    refine ⟨s.runningOut, s.tickAsked, s.tickJudged, ?_, sortBy_byCreel _, ?_, ⟨_, rfl, List.length_map _, ?_⟩, ?_, ?_⟩
    · rw [← estimated]
      exact sortBy_perm ..
    · rw [← estimated]
      rfl
    · intro k r found
      rw [List.getElem?_map, found]
      exact ⟨fun falls => congrArg some ((judgedRec_eq s r).1 falls),
        fun stays => congrArg some ((judgedRec_eq s r).2 stays)⟩
    · intro falls
      rw [rovingTick_eq, if_pos ((tickFalls_iff s).mpr falls)]
    · intro stays
      rw [rovingTick_eq, if_neg (fun falls => ?_)]
      obtain ⟨r, member, falls⟩ := (tickFalls_iff s).mp falls
      exact stays r member falls
  case asks =>
    refine ⟨sortBy creelBefore ((s.runOutAskedRecs creels).filter (fun r => decide (r.creel ∈ creels))), ?_⟩
    rintro _ rfl
    exact ⟨sortBy_perm .., sortBy_byCreel _, askRunOut_eq s creels⟩

end Sys2Proof.Machine
end

section
/-! The ends of answer waits, of kept etas and of deferrals (R122, R123, R125, R127, R128, R134). -/

namespace Sys2Proof.Machine

/-! ## The earliest moment reached -/

/-- Taking the smaller of two moments over a list ends at its least one. -/
theorem foldl_least {m : Nat} : ∀ (moments : List Nat) (acc : Option Nat), (∀ x ∈ moments, m ≤ x) →
    (∀ a, acc = some a → m ≤ a) → (acc = some m ∨ m ∈ moments) →
    moments.foldl (fun acc x => some (min x (acc.getD x))) acc = some m
  | [], _, _, _, found => found.resolve_right (by simp)
  | x :: moments, acc, least, above, found => by
    have low := least x List.mem_cons_self
    have least' : ∀ y ∈ moments, m ≤ y := fun y member => least y (List.mem_cons_of_mem _ member)
    rw [List.foldl_cons]
    refine foldl_least moments _ least' (fun a taken => ?_) ?_
    · cases acc with
      | none => simp at taken; omega
      | some b =>
        have := above b rfl
        simp at taken
        omega
    · rcases found with rfl | found
      · exact .inl (by simp [low])
      · rcases List.mem_cons.mp found with rfl | later
        · cases acc with
          | none => exact .inl (by simp)
          | some b => exact .inl (by simp [above b rfl])
        · exact .inr later

theorem earliestReached_eq {now m : Nat} {moments : List Nat} (reached : m ≤ now) (found : m ∈ moments)
    (least : ∀ x ∈ moments, m ≤ x) : earliestReached now moments = some m :=
  foldl_least _ _ (fun x member => least x (List.mem_filter.mp member).1) (fun _ none => nomatch none)
    (.inr (List.mem_filter.mpr ⟨found, decide_eq_true reached⟩))

/-- A command that takes the earliest moment reached, while the part is active. -/
theorem whileActive_earliest {s : State} {t m : Nat} (moments : State → List Nat) (act : State → Nat → State)
    (active : s.start.phase = .active) (reached : m ≤ max s.clock t / 1000) (found : m ∈ moments (s.later t))
    (least : ∀ x ∈ moments (s.later t), m ≤ x) : s.whileActive t (fun s =>
      match earliestReached s.nowMs (moments s) with
      | some m => act s m
      | none => s) = act (s.later t) m := by
  have earliest : earliestReached (s.later t).nowMs (moments (s.later t)) = some m :=
    earliestReached_eq reached found least
  rw [whileActive_later t _ active]
  simp only [earliest]

/-! ## The batch timer and the count of the rail's silence -/

/-- R122: with a batch delay above 0 the start of the batch timer counts nothing. -/
theorem startBatch_tally {s : State} (delay : s.cfg.batchDelay ≠ 0) : s.startBatch.tally = s.tally := by
  unfold State.startBatch
  split
  · rfl
  · rw [if_neg delay]
    rfl

theorem handAsk_exceptSendFailures (s : State) (part : List SupplyRec) :
    (s.handAsk part).tally.exceptSendFailures = s.tally.exceptSendFailures := by
  rw [handAsk_eq, hand_exceptSendFailures]

/-- The asks of some records leave the rail-silent count as it stands. -/
theorem handAsks_railSilent (s : State) (recs : List SupplyRec) :
    (s.handAsks recs).tally.opened.counts.railSilent = s.tally.opened.counts.railSilent := by
  refine foldl_keeps (fun s : State => s.tally.opened.counts.railSilent) _ (fun s part => ?_) _ _
  have counts := congrArg (fun u : TallyUnit => u.opened.counts.railSilent) (handAsk_exceptSendFailures s part)
  exact counts

/-! ## The end of an answer wait (R125, R134) -/

/-- R125, R134: an answer wait of the record, or its moment to be asked again, ends at a moment. -/
def SupplyRec.waits (r : SupplyRec) (m : Nat) : Prop := (r.state = .asked ∨ r.state = .runOut) ∧ r.retryAt = some m

theorem waitsFor_iff (r : SupplyRec) (m : Nat) : r.waitsFor m = true ↔ r.waits m := by
  simp [SupplyRec.waitsFor, SupplyRec.waits]

/-- R125, R134: a record whose wait ends: asked again, or given up on after the fifth ask. -/
def State.waitEndedRec (s : State) (r : SupplyRec) : SupplyRec :=
  if r.asks < 5 then { r with asks := r.asks + 1, retryAt := some (s.clock / 1000 + 30000) }
  else if r.state = .asked then { r with state := .due, asks := 0, retryAt := none }
  else { r with asks := 0, retryAt := some (s.clock / 1000 + 1000 * s.cfg.batchDelay) }

/-- The records at the moment at which answer waits end. -/
def State.waitEndedRecs (s : State) (m : Nat) : List SupplyRec := s.roving.recs.map (fun r =>
  if (r.state = .asked ∨ r.state = .runOut) ∧ r.retryAt = some m then s.waitEndedRec r else r)

/-- R125: the sections that are asked for again, in the order of R123. -/
def State.waitListed (s : State) (m : Nat) : List SupplyRec := sortBy askBefore (s.roving.recs.filter (fun r =>
  (r.state == .asked || r.state == .runOut) && r.retryAt == some m && decide (r.asks < 5)))

/-- The state once those sections are asked for again. -/
def State.waitAsked (s : State) (m : Nat) : State :=
  ({ s with roving := { s.roving with recs := s.waitEndedRecs m } } : State).handAsks (s.waitListed m)

/-- R141: the state with a silence of the rail counted. -/
def State.silenceCounted (s : State) : State := { s with tally := { s.tally with opened := { s.tally.opened with
  counts := { s.tally.opened.counts with railSilent := min 255 (s.tally.opened.counts.railSilent + 1) } } } }

/-- R125: a section is given up on at the moment. -/
def State.givesUp (s : State) (m : Nat) : Bool := s.roving.recs.any (fun r => r.waitsFor m && decide (5 ≤ r.asks))

/-- R125: an ASKED section is given up on and returns to DUE. -/
def State.losesAsk (s : State) (m : Nat) : Bool :=
  s.roving.recs.any (fun r => r.waitsFor m && decide (5 ≤ r.asks) && r.state == .asked)

/-- The state before the batch timer: the asks, and one silence counted if a section was given up on. -/
def State.waitCounted (s : State) (m : Nat) : State :=
  if s.givesUp m then (s.waitAsked m).silenceCounted else s.waitAsked m

/-- R122, R125, R134: the asks and the count, and then the batch timer (log 20). -/
theorem answerWaitEnds_eq (s : State) (m : Nat) : s.answerWaitEnds m =
    if s.losesAsk m then (s.waitCounted m).startBatch else s.waitCounted m := by
  have given : (s.roving.recs.filter (fun r => r.waitsFor m)).filter (fun r => decide (5 ≤ r.asks)) =
      s.roving.recs.filter (fun r => r.waitsFor m && decide (5 ≤ r.asks)) := by
    rw [List.filter_filter]
    exact List.filter_congr fun r _ => Bool.and_comm ..
  have again : (s.roving.recs.filter (fun r => r.waitsFor m)).filter (fun r => decide (r.asks < 5)) =
      s.roving.recs.filter (fun r =>
        (r.state == .asked || r.state == .runOut) && r.retryAt == some m && decide (r.asks < 5)) := by
    rw [List.filter_filter]
    exact List.filter_congr fun r _ => Bool.and_comm ..
  have recs : s.editSupplies (fun r =>
      if r.waitsFor m then
        if r.asks < 5 then { r with asks := r.asks + 1, retryAt := some s.answerEnd }
        else if r.state == .asked then { r with state := .due, asks := 0, retryAt := none }
        else { r with asks := 0, retryAt := some (s.nowMs + 1000 * s.cfg.batchDelay) }
      else r) = { s with roving := { s.roving with recs := s.waitEndedRecs m } } := by
    simp only [SupplyRec.waitsFor, Bool.and_eq_true, Bool.or_eq_true, beq_iff_eq]
    rfl
  unfold State.answerWaitEnds
  simp only [given, again, recs, List.any_filter]
  have gives : (s.roving.recs.filter (fun r => r.waitsFor m && decide (5 ≤ r.asks))).isEmpty = !s.givesUp m := by
    rw [Bool.eq_iff_iff]
    simp [State.givesUp]
  unfold State.waitCounted
  rw [gives]
  cases s.givesUp m <;> rfl

theorem givesUp_iff (s : State) (m : Nat) :
    s.givesUp m = true ↔ ∃ r ∈ s.roving.recs, r.waits m ∧ 5 ≤ r.asks := by
  simp only [State.givesUp, List.any_eq_true, Bool.and_eq_true, waitsFor_iff, decide_eq_true_eq]

theorem losesAsk_iff (s : State) (m : Nat) :
    s.losesAsk m = true ↔ ∃ r ∈ s.roving.recs, r.waits m ∧ 5 ≤ r.asks ∧ r.state = .asked := by
  simp only [State.losesAsk, List.any_eq_true, Bool.and_eq_true, waitsFor_iff, decide_eq_true_eq, beq_iff_eq, and_assoc]

/-- The count moves exactly if a section is given up on. -/
theorem waitCounted_cases (s : State) (m : Nat) :
    ((∃ r ∈ s.roving.recs, r.waits m ∧ 5 ≤ r.asks) → s.waitCounted m = (s.waitAsked m).silenceCounted) ∧
      ((∀ r ∈ s.roving.recs, r.waits m → r.asks < 5) → s.waitCounted m = s.waitAsked m) := by
  refine ⟨fun given => if_pos ((givesUp_iff s m).mpr given), fun again => if_neg fun given => ?_⟩
  obtain ⟨r, member, waits, five⟩ := (givesUp_iff s m).mp given
  exact absurd (again r member waits) (Nat.not_lt.mpr five)

/-- The batch timer is started exactly if an ASKED section is given up on. -/
theorem answerWaitEnds_cases (s : State) (m : Nat) :
    ((∃ r ∈ s.roving.recs, r.waits m ∧ 5 ≤ r.asks ∧ r.state = .asked) →
        s.answerWaitEnds m = (s.waitCounted m).startBatch) ∧
      ((∀ r ∈ s.roving.recs, r.waits m → r.state = .asked → r.asks < 5) → s.answerWaitEnds m = s.waitCounted m) := by
  rw [answerWaitEnds_eq]
  refine ⟨fun lost => if_pos ((losesAsk_iff s m).mpr lost), fun again => if_neg fun lost => ?_⟩
  obtain ⟨r, member, waits, five, state⟩ := (losesAsk_iff s m).mp lost
  exact absurd (again r member waits state) (Nat.not_lt.mpr five)

theorem waitCounted_roving (s : State) (m : Nat) : (s.waitCounted m).roving.recs = s.waitEndedRecs m ∧
    (s.waitCounted m).roving.batchDue = s.roving.batchDue := by
  have asked : (s.waitAsked m).roving.recs = s.waitEndedRecs m ∧
      (s.waitAsked m).roving.batchDue = s.roving.batchDue := handAsks_recs ..
  unfold State.waitCounted
  split <;> exact asked

theorem waitCounted_keeps (s : State) (m : Nat) : (s.waitCounted m).cfg = s.cfg ∧
    (s.waitCounted m).clock = s.clock := by
  have asked : (s.waitAsked m).cfg = s.cfg ∧ (s.waitAsked m).clock = s.clock := by simp [State.waitAsked, State.cfg]
  unfold State.waitCounted
  split <;> exact asked

/-- R141: the rail-silent count at the moment at which answer waits end. -/
theorem waitCounted_railSilent (s : State) (m : Nat) :
    ((∃ r ∈ s.roving.recs, r.waits m ∧ 5 ≤ r.asks) → (s.waitCounted m).tally.opened.counts.railSilent =
        min 255 (s.tally.opened.counts.railSilent + 1)) ∧
      ((∀ r ∈ s.roving.recs, r.waits m → r.asks < 5) → (s.waitCounted m).tally.opened.counts.railSilent =
        s.tally.opened.counts.railSilent) := by
  have asked : (s.waitAsked m).tally.opened.counts.railSilent = s.tally.opened.counts.railSilent :=
    handAsks_railSilent ..
  obtain ⟨counts, keeps⟩ := waitCounted_cases s m
  refine ⟨fun given => ?_, fun again => ?_⟩
  · rw [counts given, ← asked]
    rfl
  · rw [keeps again, asked]

section

variable {s : State} (m : Nat) (delay : s.cfg.batchDelay ≠ 0)

include delay

/-- R122: the batch timer that follows the end of some answer waits. -/
theorem waitCounted_startBatch : (s.waitCounted m).startBatch.roving = { (s.waitCounted m).roving with
      batchDue := some (s.roving.batchDue.getD (s.clock / 1000 + 1000 * s.cfg.batchDelay)) } ∧
    (s.waitCounted m).startBatch.tally = (s.waitCounted m).tally := by
  obtain ⟨cfg, clock⟩ := waitCounted_keeps s m
  refine ⟨?_, startBatch_tally (cfg.symm ▸ delay)⟩
  rw [startBatch_roving (cfg.symm ▸ delay), (waitCounted_roving s m).2, State.nowMs, cfg, clock]

theorem answerWaitEnds_recs : (s.answerWaitEnds m).roving.recs = s.waitEndedRecs m := by
  rw [answerWaitEnds_eq]
  split
  · rw [(waitCounted_startBatch m delay).1, (waitCounted_roving s m).1]
  · exact (waitCounted_roving s m).1

theorem answerWaitEnds_tally : (s.answerWaitEnds m).tally = (s.waitCounted m).tally := by
  rw [answerWaitEnds_eq]
  split
  · exact (waitCounted_startBatch m delay).2
  · rfl

theorem answerWaitEnds_batchDue :
    ((∃ r ∈ s.roving.recs, r.waits m ∧ 5 ≤ r.asks ∧ r.state = .asked) → (s.answerWaitEnds m).roving.batchDue =
        some (s.roving.batchDue.getD (s.clock / 1000 + 1000 * s.cfg.batchDelay))) ∧
      ((∀ r ∈ s.roving.recs, r.waits m → r.state = .asked → r.asks < 5) →
        (s.answerWaitEnds m).roving.batchDue = s.roving.batchDue) := by
  obtain ⟨starts, stays⟩ := answerWaitEnds_cases s m
  refine ⟨fun lost => ?_, fun again => ?_⟩
  · rw [starts lost, (waitCounted_startBatch m delay).1]
  · rw [stays again, (waitCounted_roving s m).2]

/-- Whether the batch timer has been started there or not, a start that follows ends alike. -/
theorem answerWaitEnds_batchDue_getD :
    (s.answerWaitEnds m).roving.batchDue.getD (s.clock / 1000 + 1000 * s.cfg.batchDelay) =
      s.roving.batchDue.getD (s.clock / 1000 + 1000 * s.cfg.batchDelay) := by
  rw [answerWaitEnds_eq]
  split
  · rw [(waitCounted_startBatch m delay).1, Option.getD_some]
  · rw [(waitCounted_roving s m).2]

end

theorem waitEndedRecs_getElem? (s : State) (m k : Nat) {r : SupplyRec} (found : s.roving.recs[k]? = some r) :
    (r.waits m → (s.waitEndedRecs m)[k]? = some (s.waitEndedRec r)) ∧
      (¬r.waits m → (s.waitEndedRecs m)[k]? = some r) := by
  rw [State.waitEndedRecs, List.getElem?_map, found]
  exact ⟨fun waits => congrArg some (if_pos waits), fun stays => congrArg some (if_neg stays)⟩

theorem exec_rovingAnswerWait {s : State} {t m : Nat} (active : s.start.phase = .active)
    (reached : m ≤ max s.clock t / 1000)
    (least : ∀ r ∈ s.roving.recs, (r.state = .asked ∨ r.state = .runOut) → ∀ x, r.retryAt = some x → m ≤ x)
    (found : ∃ r ∈ s.roving.recs, r.waits m) :
    exec (.rovingAnswerWait t) s = .next ((s.later t).answerWaitEnds m) := by
  have moments : ∀ x, x ∈ (s.later t).waitMoments ↔
      ∃ r ∈ s.roving.recs, (r.state = .asked ∨ r.state = .runOut) ∧ r.retryAt = some x := by
    simp only [State.waitMoments, List.mem_filterMap, List.mem_filter, Bool.or_eq_true, beq_iff_eq, later_roving,
      and_assoc, implies_true]
  refine congrArg Host.Outcome.next (whileActive_earliest State.waitMoments State.answerWaitEnds active reached
    ((moments m).mpr found) fun x member => ?_)
  obtain ⟨r, member, state, moment⟩ := (moments x).mp member
  exact least r member state x moment

/-! ## The end of a kept eta (R127, R134) -/

/-- R127: a record keeps its eta to a moment. -/
def SupplyRec.keepsTo (m : Nat) (r : SupplyRec) : Bool :=
  r.eta.any (fun e => decide (m = e.received + 60000 * (e.minutes + 10)))

theorem etaEnds_eq (r : SupplyRec) (m : Nat) : r.etaEnds m = r.keepsTo m := by
  unfold SupplyRec.etaEnds SupplyRec.keepsTo
  cases r.eta with
  | none => rfl
  | some e =>
    rw [Bool.eq_iff_iff, Option.map_some, Option.any_some, beq_iff_eq, Option.some_inj, decide_eq_true_eq]
    exact eq_comm

theorem keepsTo_iff (r : SupplyRec) (m : Nat) :
    r.keepsTo m = true ↔ ∃ e, r.eta = some e ∧ m = e.received + 60000 * (e.minutes + 10) := by
  simp [SupplyRec.keepsTo, Option.any_eq_true]

/-- R134: a RUN-OUT record that is asked for again at once. -/
def SupplyRec.askedAgain (ends : Nat) (r : SupplyRec) : SupplyRec :=
  { r with asks := 1, eta := none, retryAt := some ends }

/-- R127, R134: a record at the moment to which etas are kept. -/
def SupplyRec.etaEnded (m ends : Nat) (r : SupplyRec) : SupplyRec :=
  if r.keepsTo m = true ∧ r.state = .acked then { r with state := .due, eta := none }
  else if r.keepsTo m = true ∧ r.state = .runOut then r.askedAgain ends
  else r

/-- The state once the RUN-OUT sections among them are asked for again, in the order of R123. -/
def State.etaAsked (s : State) (m : Nat) : State :=
  ({ s with roving := { s.roving with
      recs := s.roving.recs.map (SupplyRec.etaEnded m (s.clock / 1000 + 30000)) } } : State).handAsks
    (sortBy askBefore ((s.roving.recs.filter (fun r => r.keepsTo m && r.state == .runOut)).map
      (SupplyRec.askedAgain (s.clock / 1000 + 30000))))

theorem etaEnded_cases (m ends : Nat) (r : SupplyRec) :
    (r.keepsTo m = true → r.state = .acked →
        some (r.etaEnded m ends) = some { r with state := .due, eta := none }) ∧
      (r.keepsTo m = true → r.state = .runOut → some (r.etaEnded m ends) = some (r.askedAgain ends)) ∧
      ((¬r.keepsTo m = true ∨ (r.state ≠ .acked ∧ r.state ≠ .runOut)) → some (r.etaEnded m ends) = some r) := by
  unfold SupplyRec.etaEnded
  refine ⟨fun keeps state => by simp [keeps, state], fun keeps state => by simp [keeps, state], ?_⟩
  rintro (lasts | ⟨acked, runOut⟩)
  · simp [lasts]
  · simp [acked, runOut]

/-- R127: an ACKED record as its eta ends. -/
def SupplyRec.etaLost (m : Nat) (r : SupplyRec) : SupplyRec :=
  if r.etaEnds m && r.state == .acked then { r with state := .due, eta := none } else r

theorem etaLost_creel (m : Nat) (r : SupplyRec) : (r.etaLost m).creel = r.creel := by
  unfold SupplyRec.etaLost
  split <;> rfl

/-- The two changes that the end of an eta makes of a record, taken together. -/
theorem etaEnded_eq (m ends : Nat) (r : SupplyRec) : r.etaEnded m ends =
    if r.etaEnds m && r.state == .runOut then (r.etaLost m).askedAgain ends else r.etaLost m := by
  unfold SupplyRec.etaEnded SupplyRec.etaLost
  rw [etaEnds_eq]
  cases r.keepsTo m <;> cases state : r.state <;> simp

/-- R127: one change of the records, the asks, and the start of the batch timer (log 20). -/
theorem etaEnd_eq {s : State} (m : Nat) (nodup : (s.roving.recs.map (fun r => r.creel)).Nodup) : s.etaEnd m =
    if s.roving.recs.any (fun r => r.keepsTo m && r.state == .acked) then (s.etaAsked m).startBatch
    else s.etaAsked m := by
  have asked := askAgain_chosen s (fun r => r.etaEnds m && r.state == .runOut) (SupplyRec.etaLost m)
    (fun r => (r.etaLost m).askedAgain s.answerEnd) nodup (etaLost_creel m) (fun _ => rfl)
  have listed : (s.roving.recs.filter (fun r => r.etaEnds m && r.state == .runOut)).map
        (fun r => (r.etaLost m).askedAgain s.answerEnd) =
      (s.roving.recs.filter (fun r => r.keepsTo m && r.state == .runOut)).map
        (SupplyRec.askedAgain s.answerEnd) := by
    simp only [etaEnds_eq]
    refine List.map_congr_left fun r member => ?_
    have state : r.state = .runOut := by simpa using ((Bool.and_eq_true _ _).mp (List.mem_filter.mp member).2).2
    simp [SupplyRec.etaLost, state]
  rw [← funext (etaEnded_eq m s.answerEnd), listed] at asked
  have lost : s.roving.recs.any (fun r => r.etaEnds m && r.state == .acked) =
      s.roving.recs.any (fun r => r.keepsTo m && r.state == .acked) := by simp only [etaEnds_eq]
  rw [← lost]
  exact congrArg (fun u : State => if s.roving.recs.any (fun r => r.etaEnds m && r.state == .acked) then u.startBatch
    else u) asked

/-- The batch timer is started exactly if an ACKED section loses its eta. -/
theorem etaEnd_cases {s : State} (m : Nat) (nodup : (s.roving.recs.map (fun r => r.creel)).Nodup) :
    ((∃ r ∈ s.roving.recs, r.keepsTo m = true ∧ r.state = .acked) → s.etaEnd m = (s.etaAsked m).startBatch) ∧
      ((∀ r ∈ s.roving.recs, r.keepsTo m = true → r.state ≠ .acked) → s.etaEnd m = s.etaAsked m) := by
  have lost : s.roving.recs.any (fun r => r.keepsTo m && r.state == .acked) = true ↔
      ∃ r ∈ s.roving.recs, r.keepsTo m = true ∧ r.state = .acked := by simp
  rw [etaEnd_eq m nodup]
  refine ⟨fun acked => if_pos (lost.mpr acked), fun stays => if_neg fun acked => ?_⟩
  obtain ⟨r, member, ends, state⟩ := lost.mp acked
  exact stays r member ends state

theorem etaAsked_keeps (s : State) (m : Nat) :
    (s.etaAsked m).roving.recs = s.roving.recs.map (SupplyRec.etaEnded m (s.clock / 1000 + 30000)) ∧
      (s.etaAsked m).roving.batchDue = s.roving.batchDue ∧ (s.etaAsked m).cfg = s.cfg ∧
      (s.etaAsked m).clock = s.clock :=
  ⟨(handAsks_recs ..).1, (handAsks_recs ..).2, by simp [State.etaAsked, State.cfg], by simp [State.etaAsked]⟩

theorem exec_etaExpiry {s : State} {t m : Nat} (active : s.start.phase = .active)
    (reached : m ≤ max s.clock t / 1000)
    (least : ∀ r ∈ s.roving.recs, ∀ e, r.eta = some e → m ≤ e.received + 60000 * (e.minutes + 10))
    (found : ∃ r ∈ s.roving.recs, r.keepsTo m = true) :
    exec (.etaExpiry t) s = .next ((s.later t).etaEnd m) := by
  have moments : ∀ x, x ∈ (s.later t).etaMoments ↔
      ∃ r ∈ s.roving.recs, ∃ e, r.eta = some e ∧ e.received + 60000 * (e.minutes + 10) = x := by
    simp [State.etaMoments, Eta.keptUntil]
  refine congrArg Host.Outcome.next (whileActive_earliest State.etaMoments State.etaEnd active reached
    ((moments m).mpr ?_) fun x member => ?_)
  · obtain ⟨r, member, keeps⟩ := found
    obtain ⟨e, eta, moment⟩ := (keepsTo_iff r m).mp keeps
    exact ⟨r, member, e, eta, moment.symm⟩
  · obtain ⟨r, owner, e, eta, rfl⟩ := (moments x).mp member
    exact least r owner e eta

/-! ## The end of a deferral (R128, R134) -/

/-- R128, R134: a record whose retry-at ends a deferral. -/
def SupplyRec.isDeferred (r : SupplyRec) : Prop := r.state = .deferred ∨ (r.state = .runOut ∧ r.asks = 0)

/-- R128: a record at the moment at which deferrals end. -/
def SupplyRec.deferralEnded (m : Nat) (r : SupplyRec) : SupplyRec :=
  if r.state = .deferred ∧ r.retryAt = some m then { r with state := .due, retryAt := none } else r

/-- The state with the sections whose deferral ends returned to DUE. -/
def State.deferralsReturned (s : State) (m : Nat) : State :=
  { s with roving := { s.roving with recs := s.roving.recs.map (SupplyRec.deferralEnded m) } }

/-- The state once the RUN-OUT sections whose deferral ends are asked again. -/
def State.deferralsAsked (s : State) (m : Nat) : State :=
  if s.roving.recs.any (fun r => r.state == .runOut && r.asks == 0 && r.retryAt == some m) then
    (s.deferralsReturned m).answerWaitEnds m
  else s.deferralsReturned m

/-- R128: DEFERRED sections return to DUE, RUN-OUT ones are asked again, and the batch timer starts (log 20). -/
theorem deferralEnds_eq (s : State) (m : Nat) : s.deferralEnds m =
    if s.roving.recs.any (fun r => r.state == .deferred && r.retryAt == some m) then (s.deferralsAsked m).startBatch
    else s.deferralsAsked m := by
  have returned : s.editSupplies (fun r =>
      if r.state == .deferred && r.retryAt == some m then { r with state := .due, retryAt := none } else r) =
      s.deferralsReturned m := by
    simp only [Bool.and_eq_true, beq_iff_eq]
    rfl
  unfold State.deferralEnds
  simp only [returned]
  rfl

theorem deferralsAsked_cases (s : State) (m : Nat) :
    ((∃ r ∈ s.roving.recs, (r.isDeferred ∧ r.retryAt = some m) ∧ r.state = .runOut) →
        s.deferralsAsked m = (s.deferralsReturned m).answerWaitEnds m) ∧
      ((∀ r ∈ s.roving.recs, r.isDeferred ∧ r.retryAt = some m → r.state ≠ .runOut) →
        s.deferralsAsked m = s.deferralsReturned m) := by
  have again : s.roving.recs.any (fun r => r.state == .runOut && r.asks == 0 && r.retryAt == some m) = true ↔
      ∃ r ∈ s.roving.recs, (r.isDeferred ∧ r.retryAt = some m) ∧ r.state = .runOut := by
    simp only [List.any_eq_true, Bool.and_eq_true, beq_iff_eq, SupplyRec.isDeferred]
    refine exists_congr fun r => and_congr_right fun _ => ?_
    constructor
    · rintro ⟨⟨state, asks⟩, moment⟩
      exact ⟨⟨.inr ⟨state, asks⟩, moment⟩, state⟩
    · rintro ⟨⟨state' | ⟨-, asks⟩, moment⟩, state⟩
      · rw [state] at state'
        cases state'
      · exact ⟨⟨state, asks⟩, moment⟩
  refine ⟨fun asks => if_pos (again.mpr asks), fun stays => if_neg fun asks => ?_⟩
  obtain ⟨r, member, due, state⟩ := again.mp asks
  exact stays r member due state

theorem deferralEnds_cases (s : State) (m : Nat) :
    ((∃ r ∈ s.roving.recs, (r.isDeferred ∧ r.retryAt = some m) ∧ r.state = .deferred) →
        s.deferralEnds m = (s.deferralsAsked m).startBatch) ∧
      ((∀ r ∈ s.roving.recs, r.isDeferred ∧ r.retryAt = some m → r.state ≠ .deferred) →
        s.deferralEnds m = s.deferralsAsked m) := by
  have falls : s.roving.recs.any (fun r => r.state == .deferred && r.retryAt == some m) = true ↔
      ∃ r ∈ s.roving.recs, (r.isDeferred ∧ r.retryAt = some m) ∧ r.state = .deferred := by
    simp only [List.any_eq_true, Bool.and_eq_true, beq_iff_eq]
    exact exists_congr fun r => and_congr_right fun _ =>
      ⟨fun ⟨state, moment⟩ => ⟨⟨.inl state, moment⟩, state⟩, fun ⟨⟨_, moment⟩, state⟩ => ⟨state, moment⟩⟩
  rw [deferralEnds_eq]
  refine ⟨fun due => if_pos (falls.mpr due), fun stays => if_neg fun due => ?_⟩
  obtain ⟨r, member, due, state⟩ := falls.mp due
  exact stays r member due state

theorem deferralsAsked_keeps (s : State) (m : Nat) :
    (s.deferralsAsked m).cfg = s.cfg ∧ (s.deferralsAsked m).clock = s.clock := by
  unfold State.deferralsAsked
  split <;> simp [State.deferralsReturned, State.cfg]

theorem exec_deferralEnd {s : State} {t m : Nat} (active : s.start.phase = .active)
    (reached : m ≤ max s.clock t / 1000)
    (least : ∀ r ∈ s.roving.recs, r.isDeferred → ∀ x, r.retryAt = some x → m ≤ x)
    (found : ∃ r ∈ s.roving.recs, r.isDeferred ∧ r.retryAt = some m) :
    exec (.deferralEnd t) s = .next ((s.later t).deferralEnds m) := by
  have moments : ∀ x, x ∈ (s.later t).deferralMoments ↔
      ∃ r ∈ s.roving.recs, r.isDeferred ∧ r.retryAt = some x := by
    simp [State.deferralMoments, SupplyRec.isDeferred, and_assoc]
  refine congrArg Host.Outcome.next (whileActive_earliest State.deferralMoments State.deferralEnds active reached
    ((moments m).mpr found) fun x member => ?_)
  obtain ⟨r, member, deferred, moment⟩ := (moments x).mp member
  exact least r member deferred x moment

/-! ## Every record, with a batch delay above 0 -/

section

variable {s : State} (m : Nat) (delay : s.cfg.batchDelay ≠ 0)

include delay

/-- R122, R127: the records and the batch timer at the end of some kept etas. -/
theorem etaEnd_roving (nodup : (s.roving.recs.map (fun r => r.creel)).Nodup) :
    (s.etaEnd m).roving.recs = s.roving.recs.map (SupplyRec.etaEnded m (s.clock / 1000 + 30000)) ∧
      ((∃ r ∈ s.roving.recs, r.keepsTo m = true ∧ r.state = .acked) → (s.etaEnd m).roving.batchDue =
        some (s.roving.batchDue.getD (s.clock / 1000 + 1000 * s.cfg.batchDelay))) ∧
      ((∀ r ∈ s.roving.recs, r.keepsTo m = true → r.state ≠ .acked) →
        (s.etaEnd m).roving.batchDue = s.roving.batchDue) := by
  obtain ⟨recs, batchDue, cfg, clock⟩ := etaAsked_keeps s m
  have batch := startBatch_roving (s := s.etaAsked m) (cfg.symm ▸ delay)
  obtain ⟨starts, stays⟩ := etaEnd_cases m nodup
  refine ⟨?_, fun lost => ?_, fun keeps => ?_⟩
  · rw [etaEnd_eq m nodup]
    split
    · rw [batch, recs]
    · exact recs
  · rw [starts lost, batch, batchDue, State.nowMs, cfg, clock]
  · rw [stays keeps, batchDue]

/-- R128, R134: the records at the end of some deferrals, by whether a RUN-OUT section is among them. -/
theorem deferralsAsked_roving :
    ((∃ r ∈ s.roving.recs, (r.isDeferred ∧ r.retryAt = some m) ∧ r.state = .runOut) →
        (s.deferralsAsked m).roving.recs = (s.deferralsReturned m).waitEndedRecs m) ∧
      ((∀ r ∈ s.roving.recs, r.isDeferred ∧ r.retryAt = some m → r.state ≠ .runOut) →
        (s.deferralsAsked m).roving.recs = (s.deferralsReturned m).roving.recs) ∧
      (s.deferralsAsked m).roving.batchDue.getD (s.clock / 1000 + 1000 * s.cfg.batchDelay) =
        s.roving.batchDue.getD (s.clock / 1000 + 1000 * s.cfg.batchDelay) := by
  obtain ⟨again, stays⟩ := deferralsAsked_cases s m
  refine ⟨fun asks => ?_, fun none => ?_, ?_⟩
  · rw [again asks, answerWaitEnds_recs m (s := s.deferralsReturned m) delay]
  · rw [stays none]
  · unfold State.deferralsAsked
    split
    · exact answerWaitEnds_batchDue_getD m (s := s.deferralsReturned m) delay
    · rfl

/-- R122, R128: the records and the batch timer once the deferrals have ended. -/
theorem deferralEnds_roving : (s.deferralEnds m).roving.recs = (s.deferralsAsked m).roving.recs ∧
    ((∃ r ∈ s.roving.recs, (r.isDeferred ∧ r.retryAt = some m) ∧ r.state = .deferred) →
      (s.deferralEnds m).roving.batchDue =
        some (s.roving.batchDue.getD (s.clock / 1000 + 1000 * s.cfg.batchDelay))) := by
  obtain ⟨cfg, clock⟩ := deferralsAsked_keeps s m
  have batch := startBatch_roving (s := s.deferralsAsked m) (cfg.symm ▸ delay)
  obtain ⟨-, -, batchDue⟩ := deferralsAsked_roving m delay
  refine ⟨?_, fun falls => ?_⟩
  · rw [deferralEnds_eq]
    split
    · rw [batch]
    · rfl
  · rw [(deferralEnds_cases s m).1 falls, batch, State.nowMs, cfg, clock, batchDue]

end

theorem deferralEnded_of_not {m : Nat} {r : SupplyRec} (stays : ¬(r.state = .deferred ∧ r.retryAt = some m)) :
    r.deferralEnded m = r := if_neg stays

theorem deferralsReturned_getElem? (s : State) (m k : Nat) {r : SupplyRec} (found : s.roving.recs[k]? = some r) :
    (s.deferralsReturned m).roving.recs[k]? = some (r.deferralEnded m) := by
  simp [State.deferralsReturned, found]

/-- R128, R134: each record once the deferrals have ended; a wait that ends at the same moment ends with them only where
a RUN-OUT section is asked again (log 21). -/
theorem deferralsAsked_getElem? {s : State} (m : Nat) (delay : s.cfg.batchDelay ≠ 0) (k : Nat) {r : SupplyRec}
    (found : s.roving.recs[k]? = some r) :
    (r.isDeferred ∧ r.retryAt = some m → r.state = .deferred →
        (s.deferralsAsked m).roving.recs[k]? = some { r with state := .due, retryAt := none }) ∧
      (r.isDeferred ∧ r.retryAt = some m → r.state = .runOut →
        (s.deferralsAsked m).roving.recs[k]? = some (s.waitEndedRec r)) ∧
      (¬(r.isDeferred ∧ r.retryAt = some m) → ¬r.waits m → (s.deferralsAsked m).roving.recs[k]? = some r) ∧
      (r.waits m → (∀ q ∈ s.roving.recs, q.isDeferred ∧ q.retryAt = some m → q.state ≠ .runOut) →
        (s.deferralsAsked m).roving.recs[k]? = some r) ∧
      (r.waits m → (∃ q ∈ s.roving.recs, (q.isDeferred ∧ q.retryAt = some m) ∧ q.state = .runOut) →
        (s.deferralsAsked m).roving.recs[k]? = some (s.waitEndedRec r)) := by
  obtain ⟨asked, stands, -⟩ := deferralsAsked_roving (s := s) m delay
  have member : r ∈ s.roving.recs := List.mem_of_getElem? found
  have returned := deferralsReturned_getElem? s m k found
  have waitNow := waitEndedRecs_getElem? (s.deferralsReturned m) m k returned
  have kept : r.waits m → r.deferralEnded m = r := fun ⟨state, _⟩ =>
    deferralEnded_of_not fun ⟨deferred, _⟩ => by simp [deferred] at state
  have again : r.waits m → (∃ q ∈ s.roving.recs, (q.isDeferred ∧ q.retryAt = some m) ∧ q.state = .runOut) →
      (s.deferralsAsked m).roving.recs[k]? = some (s.waitEndedRec r) := fun waits out => by
    rw [kept waits] at waitNow
    rw [asked out]
    exact waitNow.1 waits
  have returnedOnly : ¬(r.deferralEnded m).waits m →
      (s.deferralsAsked m).roving.recs[k]? = some (r.deferralEnded m) := fun stays => by
    by_cases out : ∃ q ∈ s.roving.recs, (q.isDeferred ∧ q.retryAt = some m) ∧ q.state = .runOut
    · rw [asked out]
      exact waitNow.2 stays
    · rw [stands fun q member due state => out ⟨q, member, due, state⟩]
      exact returned
  refine ⟨fun ⟨_, moment⟩ state => ?_, fun due state => ?_, fun notDue stays => ?_, fun waits without => ?_, again⟩
  · have ended : r.deferralEnded m = { r with state := .due, retryAt := none } := if_pos ⟨state, moment⟩
    rw [← ended]
    exact returnedOnly (by simp [ended, SupplyRec.waits])
  · exact again ⟨.inr state, due.2⟩ ⟨r, member, due, state⟩
  · have ended : r.deferralEnded m = r := deferralEnded_of_not fun ⟨state, moment⟩ => notDue ⟨.inl state, moment⟩
    exact (returnedOnly (by rwa [ended])).trans (congrArg some ended)
  · rw [stands without, returned, kept waits]

/-- R125: the ends of answer waits in the order of the rule, with any batch delay. -/
theorem answerWaitEnds_whole (s : State) (m : Nat) : ∃ (listed : List SupplyRec) (asked s1 : State),
    inAskOrder listed (s.roving.recs.filter (fun r =>
      (r.state == .asked || r.state == .runOut) && r.retryAt == some m && decide (r.asks < 5))) ∧
    asked = ({ s with roving := { s.roving with recs := s.waitEndedRecs m } } : State).handAsks listed ∧
    ((∃ r ∈ s.roving.recs, r.waits m ∧ 5 ≤ r.asks) → s1 = asked.silenceCounted) ∧
    ((∀ r ∈ s.roving.recs, r.waits m → r.asks < 5) → s1 = asked) ∧
    ((∃ r ∈ s.roving.recs, r.waits m ∧ 5 ≤ r.asks ∧ r.state = .asked) → s.answerWaitEnds m = s1.startBatch) ∧
    ((∀ r ∈ s.roving.recs, r.waits m → r.state = .asked → r.asks < 5) → s.answerWaitEnds m = s1) := by
  obtain ⟨counts, keeps⟩ := waitCounted_cases s m
  obtain ⟨starts, stays⟩ := answerWaitEnds_cases s m
  exact ⟨s.waitListed m, s.waitAsked m, s.waitCounted m, sortBy_inAskOrder _, rfl, counts, keeps, starts, stays⟩

/-- Settles O43: each of the three commands record by record, and the notices and the order of their work. -/
theorem railSilenceAndExpiries : Obligations.RailSilenceAndExpiries := by
  refine ⟨?records, ?whole, ?commands⟩
  case records =>
    rintro t m s active reached delay nodup _ _ _ rfl rfl rfl
    refine ⟨fun least found => ?waits, ?etas, ?deferrals⟩
    case waits =>
      obtain ⟨silent, heard⟩ := waitCounted_railSilent (s.later t) m
      obtain ⟨started, stands⟩ := answerWaitEnds_batchDue (s := s.later t) m delay
      refine ⟨_, exec_rovingAnswerWait active reached least found, fun k r held => ?_, ?_, fun given => ?_,
        fun again => ?_, started, stands, by simp⟩
      · rw [answerWaitEnds_recs m (s := s.later t) delay]
        exact waitEndedRecs_getElem? (s.later t) m k held
      · rw [answerWaitEnds_recs m (s := s.later t) delay]
        exact List.length_map _
      · rw [answerWaitEnds_tally m (s := s.later t) delay]
        exact silent given
      · rw [answerWaitEnds_tally m (s := s.later t) delay]
        exact heard again
    case etas =>
      rintro least _ rfl found
      simp only [← keepsTo_iff] at found ⊢
      obtain ⟨recs, started, stands⟩ := etaEnd_roving (s := s.later t) m delay nodup
      refine ⟨_, exec_etaExpiry active reached least found, fun k r held => ?_, started, stands, by simp⟩
      rw [recs, List.getElem?_map, later_roving, held]
      exact etaEnded_cases m _ r
    case deferrals =>
      rintro _ _ rfl rfl least found
      obtain ⟨recs, started⟩ := deferralEnds_roving (s := s.later t) m delay
      refine ⟨_, exec_deferralEnd active reached least found, fun k r held => ?_, started, by simp⟩
      rw [recs]
      exact deferralsAsked_getElem? (s := s.later t) m delay k held
  case whole =>
    rintro s m _ rfl
    exact answerWaitEnds_whole s m
  case commands =>
    intro t m s active reached nodup
    refine ⟨exec_rovingAnswerWait active reached, ?etas, ?deferrals⟩
    case etas =>
      rintro least _ rfl found
      have acts := exec_etaExpiry active reached least found
      obtain ⟨starts, stays⟩ := etaEnd_cases (s := s.later t) m nodup
      exact ⟨_, (s.later t).etaAsked m, sortBy_inAskOrder _, rfl, fun lost => acts.trans (congrArg _ (starts lost)),
        fun keeps => acts.trans (congrArg _ (stays keeps))⟩
    case deferrals =>
      rintro _ _ rfl rfl least found _ s2 rfl again none
      have acts := exec_deferralEnd active reached least found
      obtain ⟨asks, stands⟩ := deferralsAsked_cases (s.later t) m
      obtain ⟨starts, stays⟩ := deferralEnds_cases (s.later t) m
      have asked : s2 = (s.later t).deferralsAsked m := by
        by_cases out : ∃ r ∈ s.roving.recs, (r.isDeferred ∧ r.retryAt = some m) ∧ r.state = .runOut
        · exact (again out).trans (asks out).symm
        · have without : ∀ r ∈ s.roving.recs, r.isDeferred ∧ r.retryAt = some m → r.state ≠ .runOut :=
            fun r member due state => out ⟨r, member, due, state⟩
          exact (none without).trans (stands without).symm
      rw [asked]
      exact ⟨fun falls => acts.trans (congrArg _ (starts falls)), fun keeps => acts.trans (congrArg _ (stays keeps))⟩

end Sys2Proof.Machine
end

section
/-! A TALLY-QUERY and its answer: where the three notices go, and the layouts of their payloads (R155 to R160, R202); and
the shift a cold start opens (R162). -/

namespace Sys2Proof.Machine

/-! ## The shift of a cold start (R162) -/

/-- R162, R195: whatever the level of the reset pin, POWER_ON leaves the tally unit with its cold values. -/
theorem exec_powerOn_tally (strap : Nat) (s : State) :
    ∃ s', exec (.powerOn strap) s = .next s' ∧ s'.tally = { opened := OpenShift.first, ring := [] } := by
  cases pin : s.pins.reset with
  | false => exact ⟨_, execPowerOn_released strap pin, rfl⟩
  | true => exact ⟨_, execPowerOn_asserted strap pin, rfl⟩

/-- Settles O3: the record of `OpenShift.first` and an empty ring, by the cold values of the tally unit. -/
theorem coldStartBeginsShiftOne : Obligations.ColdStartBeginsShiftOne := by
  intro strap s
  obtain ⟨s', starts, tally⟩ := exec_powerOn_tally strap s
  refine ⟨s', starts, ?_⟩
  rw [tally]
  exact ⟨rfl, rfl, rfl, rfl, rfl, rfl, rfl, rfl⟩

/-! ## Reading a field back (R200, R202) -/

theorem byteAt_drop (l : List Byte) (k j : Nat) : byteAt (l.drop k) j = byteAt l (k + j) := by
  simp [byteAt, List.getElem?_drop]

theorem wordAt_drop (l : List Byte) (k j : Nat) : wordAt (l.drop k) j = wordAt l (k + j) := by
  simp only [wordAt, byteAt_drop, Nat.add_assoc]

theorem longAt_drop (l : List Byte) (k j : Nat) : longAt (l.drop k) j = longAt l (k + j) := by
  simp only [longAt, wordAt_drop, Nat.add_assoc]

section

variable {l rest : List Byte} {k n : Nat}

/-- What stands at an offset is read from there: the bytes from the offset on start with the field. -/
theorem byteAt_of_drop (field : l.drop k = byteField n ++ rest) (fits : n ≤ 255) : byteAt l k = n := by
  have read := byteAt_drop l k 0
  rw [field] at read
  simp only [byteField, byteAt, List.cons_append, List.getD_cons_zero, BitVec.toNat_ofNat, Nat.add_zero] at read ⊢
  omega

theorem wordAt_of_drop (field : l.drop k = wordField n ++ rest) (fits : n ≤ 65535) : wordAt l k = n := by
  have read := wordAt_drop l k 0
  rw [field] at read
  rw [← Nat.add_zero k, ← read]
  simp only [wordField, wordAt, byteAt, List.cons_append, List.getD_cons_zero, List.getD_cons_succ, BitVec.toNat_ofNat]
  omega

theorem tripleAt_of_drop (field : l.drop k = tripleField n ++ rest) (fits : n < 16777216) :
    65536 * byteAt l k + wordAt l (k + 1) = n := by
  have read : 65536 * byteAt (l.drop k) 0 + wordAt (l.drop k) 1 = 65536 * byteAt l k + wordAt l (k + 1) := by
    rw [byteAt_drop, wordAt_drop, Nat.add_zero]
  rw [← read, field]
  simp only [tripleField, wordAt, byteAt, List.cons_append, List.getD_cons_zero, List.getD_cons_succ,
    BitVec.toNat_ofNat]
  omega

theorem longAt_of_drop (field : l.drop k = longField n ++ rest) (fits : n < 4294967296) : longAt l k = n := by
  have read := longAt_drop l k 0
  rw [field] at read
  rw [← Nat.add_zero k, ← read]
  simp only [longField, longAt, wordAt, byteAt, List.cons_append, List.getD_cons_zero, List.getD_cons_succ,
    BitVec.toNat_ofNat]
  omega

end

/-! ## Part 1 (R158, R202) -/

section

variable (o : OpenShift) (closed : Bool) (minutes : Nat)

/-- The fields of part 1, each with what follows it. -/
theorem partOne_fields : partOne o closed minutes =
    byteField (64 + if closed then 1 else 0) ++ (longField (o.stamp.getD 0) ++ (wordField (min 65535 minutes) ++
      (byteField o.counts.doffs ++ (wordField o.counts.dofferWait ++ (wordField o.counts.doffStall ++
      (wordField o.counts.stopped ++ (wordField o.counts.runOutMinutes ++ (wordField o.counts.blindMinutes ++
      (byteField o.counts.dofferSilent ++ (byteField o.counts.railSilent ++ (wordField o.counts.collisions ++
      (wordField o.counts.receiveErrors ++ (wordField o.counts.lateScans ++ (byteField o.counts.sendFailures ++
      (byteField o.counts.inboundOverruns ++ byteField o.counts.routineDiscards))))))))))))))) := by
  simp only [partOne, List.append_assoc, saturate, Nat.min_comm]

theorem partOne_length : (partOne o closed minutes).length = 29 := by
  rw [partOne_fields]
  rfl

/-- The part number and the mark of a closed record stand in byte 0. -/
theorem partOne_mark : byteAt (partOne o closed minutes) 0 = if closed = true then 65 else 64 := by
  rw [partOne_fields]
  cases closed <;> rfl

theorem partOne_stamp (fits : o.stamp.getD 0 < 4294967296) : longAt (partOne o closed minutes) 1 = o.stamp.getD 0 := by
  rw [partOne_fields]
  exact longAt_of_drop rfl fits

theorem partOne_minutes : wordAt (partOne o closed minutes) 5 = min 65535 minutes := by
  rw [partOne_fields]
  exact wordAt_of_drop rfl (Nat.min_le_left _ _)

/-- Each count of the frame part in its place. -/
theorem partOne_counts (counts : o.counts.inRange) {part : List Byte} (is : part = partOne o closed minutes) :
    byteAt part 7 = o.counts.doffs ∧ wordAt part 8 = o.counts.dofferWait ∧
      wordAt part 10 = o.counts.doffStall ∧ wordAt part 12 = o.counts.stopped ∧
      wordAt part 14 = o.counts.runOutMinutes ∧ wordAt part 16 = o.counts.blindMinutes ∧
      byteAt part 18 = o.counts.dofferSilent ∧ byteAt part 19 = o.counts.railSilent ∧
      wordAt part 20 = o.counts.collisions ∧ wordAt part 22 = o.counts.receiveErrors ∧
      wordAt part 24 = o.counts.lateScans ∧ byteAt part 26 = o.counts.sendFailures ∧
      byteAt part 27 = o.counts.inboundOverruns ∧ byteAt part 28 = o.counts.routineDiscards := by
  rw [is, partOne_fields]
  obtain ⟨doffs, wait, stall, stopped, runOut, blind, doffer, rail, collisions, failures, errors, overruns, discards,
    scans⟩ := counts
  exact ⟨byteAt_of_drop rfl doffs, wordAt_of_drop rfl wait, wordAt_of_drop rfl stall, wordAt_of_drop rfl stopped,
    wordAt_of_drop rfl runOut, wordAt_of_drop rfl blind, byteAt_of_drop rfl doffer, byteAt_of_drop rfl rail,
    wordAt_of_drop rfl collisions, wordAt_of_drop rfl errors, wordAt_of_drop rfl scans, byteAt_of_drop rfl failures,
    byteAt_of_drop rfl overruns, byteAt_of_drop (rest := []) rfl discards⟩

end

/-! ## Parts 2 and 3 (R159, R202) -/

/-- The three bytes of an entry of the rogue list. -/
def Rogue.bytes (g : Rogue) : List Byte := wordField g.spindle ++ byteField g.breaks

/-- A rogue list is its entries one after another, from any entry on. -/
theorem rogueBytes_drop (k : Nat) (rogues : List Rogue) :
    (rogues.flatMap Rogue.bytes).drop (3 * k) = (rogues.drop k).flatMap Rogue.bytes := by
  induction k generalizing rogues with
  | zero => rfl
  | succ k ih =>
    cases rogues with
    | nil => simp
    | cons g rogues => exact ih rogues

theorem rogueBytes_length (rogues : List Rogue) : (rogues.flatMap Rogue.bytes).length = 3 * rogues.length := by
  induction rogues with
  | nil => rfl
  | cons g rogues ih =>
    rw [List.flatMap_cons, List.length_append, ih, List.length_cons]
    simp only [Rogue.bytes, wordField, byteField, List.length_append, List.length_cons, List.length_nil]
    omega

section

variable (part : Nat) (c : SideCounts) (v : SideValues)

theorem sidePart_configured (sections : v.configured = true) : sidePart part c v = sideLayout part c v :=
  if_pos sections

/-- R159: a side with no sections is answered with every value and count 0 behind the part number. -/
theorem sidePart_unconfigured (sections : v.configured = false) :
    sidePart part c v = sideLayout part SideCounts.zero SideValues.zero := by
  rw [sidePart, sections, if_neg Bool.false_ne_true]

/-- The fields of part 2 or 3, each with what follows it. -/
theorem sideLayout_fields : sideLayout part c v =
    tripleField (part * 4194304 + v.efficiency * 4096 + v.lockedNow * 4) ++ (longField v.delivered ++
      (tripleField v.mass ++ (wordField c.endsDown ++ (byteField c.startUpBreaks ++ (wordField c.pieced ++
      (byteField c.piecedByHand ++ (byteField c.failed ++ (byteField c.lapsed ++ (byteField c.untaken ++
      (byteField c.locked ++ v.rogues.flatMap Rogue.bytes)))))))))) := by
  simp only [sideLayout, List.append_assoc]
  rfl

theorem sideLayout_rogues : (sideLayout part c v).drop 20 = v.rogues.flatMap Rogue.bytes := rfl

theorem sideLayout_length : (sideLayout part c v).length = 20 + 3 * v.rogues.length := by
  rw [← rogueBytes_length, ← sideLayout_rogues part c v, List.length_drop]
  simp only [sideLayout, tripleField, longField, wordField, byteField, List.length_append, List.length_cons]
  omega

/-- Efficiency and locked-now are packed behind the part number in the first three bytes. -/
theorem sideLayout_packed (known : part ≤ 3) (efficiency : v.efficiency ≤ 1000) (locked : v.lockedNow ≤ 1023) :
    65536 * byteAt (sideLayout part c v) 0 + wordAt (sideLayout part c v) 1 =
      4194304 * part + 4096 * v.efficiency + 4 * v.lockedNow := by
  rw [sideLayout_fields]
  exact (tripleAt_of_drop (k := 0) rfl (by omega)).trans (by omega)

theorem sideLayout_delivered (fits : v.delivered < 4294967296) : longAt (sideLayout part c v) 3 = v.delivered := by
  rw [sideLayout_fields]
  exact longAt_of_drop rfl fits

theorem sideLayout_mass (fits : v.mass < 16777216) :
    65536 * byteAt (sideLayout part c v) 7 + wordAt (sideLayout part c v) 8 = v.mass := by
  rw [sideLayout_fields]
  exact tripleAt_of_drop rfl fits

theorem sideLayout_counts (counts : c.inRange) {p : List Byte} (is : p = sideLayout part c v) :
    wordAt p 10 = c.endsDown ∧ byteAt p 12 = c.startUpBreaks ∧ wordAt p 13 = c.pieced ∧
      byteAt p 15 = c.piecedByHand ∧ byteAt p 16 = c.failed ∧ byteAt p 17 = c.lapsed ∧ byteAt p 18 = c.untaken ∧
      byteAt p 19 = c.locked := by
  rw [is, sideLayout_fields]
  obtain ⟨ends, startUp, pieced, byHand, failed, lapsed, untaken, locked⟩ := counts
  exact ⟨wordAt_of_drop rfl ends, byteAt_of_drop rfl startUp, wordAt_of_drop rfl pieced, byteAt_of_drop rfl byHand,
    byteAt_of_drop rfl failed, byteAt_of_drop rfl lapsed, byteAt_of_drop rfl untaken, byteAt_of_drop rfl locked⟩

/-- An entry of the rogue list in its place. -/
theorem sideLayout_rogue {k : Nat} {g : Rogue} (entry : v.rogues[k]? = some g) (spindle : g.spindle < 65536)
    (breaks : g.breaks < 256) :
    wordAt (sideLayout part c v) (20 + 3 * k) = g.spindle ∧ byteAt (sideLayout part c v) (22 + 3 * k) = g.breaks := by
  obtain ⟨inside, rfl⟩ := List.getElem?_eq_some_iff.mp entry
  have entryOn : (sideLayout part c v).drop (20 + 3 * k) =
      v.rogues[k].bytes ++ (v.rogues.drop (k + 1)).flatMap Rogue.bytes := by
    rw [← List.drop_drop, sideLayout_rogues, rogueBytes_drop, List.drop_eq_getElem_cons inside, List.flatMap_cons]
  have after : (sideLayout part c v).drop (22 + 3 * k) =
      byteField v.rogues[k].breaks ++ (v.rogues.drop (k + 1)).flatMap Rogue.bytes := by
    rw [show 22 + 3 * k = 20 + 3 * k + 2 by omega, ← List.drop_drop, entryOn]
    rfl
  rw [Rogue.bytes, List.append_assoc] at entryOn
  exact ⟨wordAt_of_drop entryOn (by omega), byteAt_of_drop after (by omega)⟩

end

/-! ## Handing the answer (R158, R160, R167) -/

/-- A notice that replaces none joins the routine queue at its end, where it has room (R167, R168). -/
theorem hand_joinsRoutine {s : State} {n : Notice} (routine : n.urgent = false)
    (replaces : ∀ m, n.replaces m = false) (room : s.line.routine.length < 12) :
    (s.hand n).line.routine = s.line.routine ++ [n] := by
  have joins : joinQueue n s.line.routine = some (s.line.routine ++ [n]) := by
    rw [joinQueue, List.any_eq_false.mpr fun m _ => Bool.eq_false_iff.mp (replaces m)]
    exact if_pos room
  simp [State.hand, routine, joins]

/-- The TALLY notices go to the routine queue and replace nothing there. -/
theorem handTally_routine {s : State} (dst : Nat) (o : OpenShift) (closed : Bool) (minutes : Nat) (a b : SideValues)
    (room : s.line.routine.length ≤ 9) : (s.handTally dst o closed minutes a b).line.routine = s.line.routine ++
      [s.notice .tally dst o.number (partOne o closed minutes),
       s.notice .tally dst o.number (sidePart 2 o.sideA a),
       s.notice .tally dst o.number (sidePart 3 o.sideB b)] := by
  have joins (u : State) (payload : List Byte) (room : u.line.routine.length < 12) :
      (u.hand (s.notice .tally dst o.number payload)).line.routine =
        u.line.routine ++ [s.notice .tally dst o.number payload] :=
    hand_joinsRoutine rfl (fun _ => rfl) room
  have first := joins s (partOne o closed minutes) (by omega)
  have second := joins _ (sidePart 2 o.sideA a) (by rw [first, List.length_append, List.length_singleton]; omega)
  rw [first] at second
  rw [State.handTally, joins _ _ (by rw [second]; simp only [List.length_append, List.length_singleton]; omega), second]
  simp only [List.append_assoc, List.cons_append, List.nil_append]

/-- Handing the answer raises at most the send-failures count (R141, R167). -/
theorem answerOpen_exceptSendFailures (s : State) (dst : Nat) :
    (s.answerOpen dst).tally.exceptSendFailures = s.tally.exceptSendFailures := by
  simp only [State.answerOpen, State.handTally, hand_exceptSendFailures]

/-! ## Taking the query (R156) -/

section

variable {s : State} {number : Nat} (src : Nat)

theorem takeQuery_open (asks : number = 0 ∨ number = s.tally.opened.number) :
    s.takeQuery src number = s.answerOpen src := by
  rw [State.takeQuery, if_pos (by simpa using asks)]

theorem takeQuery_ring {c : ClosedShift} (nonzero : number ≠ 0) (other : number ≠ s.tally.opened.number)
    (held : s.ringRecord number = some c) : s.takeQuery src number = s.answerClosed src c := by
  rw [State.takeQuery, if_neg (by simp [nonzero, other]), held]

theorem takeQuery_lost (nonzero : number ≠ 0) (other : number ≠ s.tally.opened.number)
    (lost : s.ringRecord number = none) : s.takeQuery src number = s.answerNone src number := by
  rw [State.takeQuery, if_neg (by simp [nonzero, other]), lost]

end

theorem exec_tallyQuery {s : State} {t : Nat} (active : s.start.phase = .active) (free : s.canHand t .tally)
    (src number : Nat) : exec (.tallyQuery t src number) s = .next ((s.handed t .tally).takeQuery src number) :=
  congrArg Host.Outcome.next (whileHanded_handed _ active free)

/-- Settles O46: the record a query names, the three notices one after another, and each field of a part read from the
offset at which it stands. -/
theorem queriesAreAnsweredInThreeParts : Obligations.QueriesAreAnsweredInThreeParts := by
  refine ⟨?answers, ?notices, ?frame, ?sides, ?frameParts⟩
  case answers =>
    intro t src number s active free
    rw [exec_tallyQuery active free]
    exact ⟨fun asks => congrArg _ (takeQuery_open src asks), fun nonzero other =>
      ⟨fun c held => congrArg _ (takeQuery_ring src nonzero other held),
        fun lost => congrArg _ (takeQuery_lost src nonzero other lost)⟩⟩
  case notices =>
    rintro s src note room rfl
    exact ⟨handTally_routine src _ _ _ _ _ room, fun c => handTally_routine src _ _ _ _ _ room⟩
  case frame =>
    intro s src
    exact ⟨by simp only [answerOpen_frame], by simp only [answerOpen_frame], answerOpen_exceptSendFailures s src⟩
  case sides =>
    rintro part c v p known rfl
    refine ⟨fun sections => ?_, fun sections counts efficiency locked delivered mass rogues => ?_⟩
    · rw [sidePart_unconfigured part c v sections]
      rcases known with rfl | rfl <;> rfl
    · rw [sidePart_configured part c v sections]
      obtain ⟨ends, startUp, pieced, byHand, failed, lapsed, untaken, lockedAll⟩ := sideLayout_counts part c v counts rfl
      refine ⟨sideLayout_length part c v, sideLayout_packed part c v (by omega) efficiency locked,
        sideLayout_delivered part c v delivered, sideLayout_mass part c v mass, ends, startUp, pieced, byHand, failed,
        lapsed, untaken, lockedAll, fun k g entry => ?_⟩
      obtain ⟨spindle, breaks⟩ := rogues g (List.mem_of_getElem? entry)
      exact sideLayout_rogue part c v entry spindle breaks
  case frameParts =>
    rintro o closed minutes part is ⟨counts, -, -⟩
    have stampAt := partOne_stamp o closed minutes
    have countsAt := partOne_counts o closed minutes counts is
    subst is
    refine ⟨partOne_length o closed minutes, partOne_mark o closed minutes, fun stamp present fits => ?_,
      fun absent => ?_, partOne_minutes o closed minutes, countsAt⟩
    · rw [present] at stampAt
      exact stampAt fits
    · rw [absent] at stampAt
      exact stampAt (by decide)

end Sys2Proof.Machine
end

section
/-! The outbound queues and the line unit's own timers: where a handed notice goes (R143, R167, R168), the renewal of
the own HOLD, the end of a peer's, isolation and the start mark (R165, R166, R173, R179, R181, R186). -/

namespace Sys2Proof.Machine

/-! ## A notice that is handed (R167, R168) -/

section

variable {n : Notice} {q : List Notice}

theorem replaces_iff {m : Notice} : n.replaces m = true ↔
    (n.kind = some .forecast ∨ n.kind = some .hello) ∧ m.kind = n.kind := by
  simp [Notice.replaces]

theorem joinQueue_replacing (single : n.kind = some .forecast ∨ n.kind = some .hello)
    (waits : ∃ m ∈ q, m.kind = n.kind) :
    joinQueue n q = some (q.map (fun m => if m.kind = n.kind then n else m)) := by
  have same : ∀ m, n.replaces m = true ↔ m.kind = n.kind := fun m => replaces_iff.trans (and_iff_right single)
  have found : q.any (fun m => n.replaces m) = true := by simpa only [List.any_eq_true, same] using waits
  rw [joinQueue, if_pos found]
  simp only [same]

/-- Everything a notice that replaces none can find: a place at the tail, or a full queue. -/
theorem joinQueue_joining (alone : ¬((n.kind = some .forecast ∨ n.kind = some .hello) ∧ ∃ m ∈ q, m.kind = n.kind)) :
    joinQueue n q = if q.length < 12 then some (q ++ [n]) else none := by
  have unmatched : ¬q.any (fun m => n.replaces m) = true := by
    simp only [List.any_eq_true, replaces_iff]
    rintro ⟨m, waits, single, same⟩
    exact alone ⟨single, m, waits, same⟩
  rw [joinQueue, if_neg unmatched]
  rfl

end

theorem hand_joined {s : State} {n : Notice} {q' : List Notice}
    (joined : joinQueue n (if n.urgent = true then s.line.urgent else s.line.routine) = some q') :
    s.hand n = { s with line := if n.urgent = true then { s.line with urgent := q' }
                                else { s.line with routine := q' } } := by
  unfold State.hand
  split at joined
  · next urgent => rw [if_pos urgent, if_pos urgent, joined]; rfl
  · next routine => rw [if_neg routine, if_neg routine, joined]; rfl

theorem hand_dropped {s : State} {n : Notice}
    (dropped : joinQueue n (if n.urgent = true then s.line.urgent else s.line.routine) = none) :
    s.hand n = s.sendFailure := by
  unfold State.hand
  split at dropped
  · next urgent => rw [if_pos urgent, dropped]
  · next routine => rw [if_neg routine, dropped]

/-- Settles O48: the three answers of `joinQueue`, each with what handing makes of it. -/
theorem handedNoticeJoinsItsQueue : Obligations.HandedNoticeJoinsItsQueue := by
  rintro s n _ q' rfl
  refine ⟨fun single waits joined => ?_, fun alone => ⟨fun room joined => ?_, fun full => ?_⟩⟩
  · exact hand_joined ((joinQueue_replacing single waits).trans (congrArg some joined.symm))
  · exact hand_joined ((joinQueue_joining alone).trans ((if_pos room).trans (congrArg some joined.symm)))
  · exact hand_dropped ((joinQueue_joining alone).trans (if_neg (Nat.not_lt.mpr full)))

/-! ## The timers and the start mark -/

section

variable {s : State} {t : Nat}

theorem exec_ownHoldExpiry {m : Nat} (active : s.start.phase = .active) (stands : s.line.ownHold = some m) :
    exec (.ownHoldExpiry t) s = .next (if m ≤ (s.later t).nowMs then
      ((s.later t).withLine { s.line with ownHold := some (m + Config.ownHoldMs) }).hand ((s.later t).holdNotice 255)
    else s.later t) := by
  refine congrArg Host.Outcome.next ?_
  rw [whileActive_later t _ active]
  simp only [later_line, stands]

theorem exec_peerHoldExpiry {station : Nat} (listens : s.underWay) : exec (.peerHoldExpiry t station) s = .next
    ((s.later t).editPeer station (fun p =>
      if reached p.holdUntil (s.later t).nowMs then { p with holdUntil := none } else p)) :=
  congrArg Host.Outcome.next (whileListening_later t _ listens)

theorem exec_isolationTimeout (listens : s.underWay) : exec (.isolationTimeout t) s = .next
    (if s.line.isolationStart + 60000000 ≤ max s.clock t then (s.later t).withLine { s.line with isolated := true }
      else s.later t) :=
  congrArg Host.Outcome.next (whileListening_later t _ listens)

theorem exec_startMark {alternation : Nat} (listens : s.underWay) : exec (.startMark t alternation) s = .next
    ((s.later t).withLine { s.line with
      receiving := s.line.receiving || (decide (8 ≤ alternation) && !s.transmits)
      lastTransition := max s.line.lastTransition (max s.clock t) }) :=
  congrArg Host.Outcome.next (whileListening_later t _ listens)

theorem reached_iff (due : Option Nat) (now : Nat) :
    reached due now = true ↔ due.any (fun m => decide (m ≤ now)) = true := by cases due <;> rfl

end

/-- Settles O55: each command by its equation above. -/
theorem lineTimersAndStartMark : Obligations.LineTimersAndStartMark := by
  refine ⟨fun t m s active stands => ⟨fun due => ?_, fun early => ?_⟩, fun t station s listens => ?_,
    fun t s listens => ⟨fun due => ?_, fun early => ?_⟩,
    fun t alternation s listens => ⟨fun mark free => ?_, fun unmarked => ?_⟩⟩
  · rw [exec_ownHoldExpiry active stands]
    exact congrArg _ (if_pos due)
  · rw [exec_ownHoldExpiry active stands]
    exact congrArg _ (if_neg (Nat.not_le.mpr early))
  · rw [exec_peerHoldExpiry listens, State.editPeer]
    simp only [← reached_iff]
    refine congrArg (fun peers => Host.Outcome.next { s.later t with line := { s.line with peers := peers } }) ?_
    refine List.map_congr_left fun p _ => ?_
    by_cases own : p.station = station
    · by_cases due : reached p.holdUntil (s.later t).nowMs = true
      · exact ((if_pos own).trans (if_pos due)).trans (if_pos ⟨own, due⟩).symm
      · exact ((if_pos own).trans (if_neg due)).trans (if_neg fun both => due both.2).symm
    · exact (if_neg own).trans (if_neg fun both => own both.1).symm
  · rw [exec_isolationTimeout listens, if_pos due]
    rfl
  · rw [exec_isolationTimeout listens, if_neg (Nat.not_le.mpr early)]
  · rw [exec_startMark listens, decide_eq_true mark, free]
    simp only [Bool.not_false, Bool.and_self, Bool.or_true]
    rfl
  · have passed : (decide (8 ≤ alternation) && !s.transmits) = false := by
      rcases unmarked with few | sends
      · rw [decide_eq_false (Nat.not_le.mpr few), Bool.false_and]
      · rw [sends, Bool.not_true, Bool.and_false]
    rw [exec_startMark listens, passed, Bool.or_false]
    rfl

end Sys2Proof.Machine
end

section
/-! The attempts of the transmitter: which notice the first one takes, and how an attempt ends (R169 to R173). -/

namespace Sys2Proof.Machine

/-! ## The choice of the notice (R169) -/

theorem eligible_iff (s : State) (n : Notice) : s.eligible n = true ↔
    n.dst = 255 ∨ ∀ p, s.peer n.dst = some p → ∀ m, p.holdUntil = some m → m ≤ s.clock / 1000 := by
  unfold State.eligible
  rw [Bool.or_eq_true, beq_iff_eq]
  refine or_congr_right ?_
  cases s.peer n.dst with
  | none => exact iff_of_true rfl nofun
  | some p =>
    simp only [Option.some.injEq, forall_eq']
    cases p.holdUntil with
    | none => exact iff_of_true rfl nofun
    | some m =>
      simp only [Option.some.injEq, forall_eq']
      exact decide_eq_true_iff

section

variable {α : Type} {p : α → Bool} {x : α} {l ahead behind : List α}

theorem find?_oldest (split : l = ahead ++ x :: behind) (passed : ∀ y ∈ ahead, p y = false) (taken : p x = true) :
    l.find? p = some x := by
  have skipped : ahead.find? p = none := List.find?_eq_none.mpr fun y member => by simp [passed y member]
  rw [split, List.find?_append, skipped, List.find?_cons_of_pos taken, Option.none_or]

/-- The oldest that is taken stands nowhere before its own place. -/
theorem erase_oldest [DecidableEq α] (split : l = ahead ++ x :: behind) (passed : ∀ y ∈ ahead, p y = false)
    (taken : p x = true) : l.erase x = ahead ++ behind := by
  have absent : x ∉ ahead := fun member => by simp [passed x member] at taken
  rw [split, List.erase_append_right _ absent, List.erase_cons_head]

end

/-! ## The first attempt (R169, R170) -/

theorem idleFor_iff (s : State) (bits : Nat) : s.idleFor bits = true ↔
    s.line.receiving = false ∧ s.transmits = false ∧ s.line.lastTransition + bits * s.bitTime ≤ s.clock := by
  rw [State.idleFor, Bool.and_eq_true, Bool.not_eq_true', quietFor_iff]

theorem transmits_of_grounded {s : State} (grounded : s.line.flight = none) : s.transmits = false := by
  simp [State.transmits, grounded]

/-- A first attempt that may begin takes the chosen notice, if there is one. -/
theorem exec_firstAttempt {s : State} {t : Nat} (active : s.start.phase = .active) (grounded : s.line.flight = none)
    (quiet : s.line.receiving = false)
    (gap : s.line.lastTransition + (if s.line.pacing = 0 then 24 else 120) * s.bitTime ≤ max s.clock t) :
    exec (.firstAttempt t) s = .next ((s.later t).chosen.elim (s.later t) (s.later t).beginNotice) := by
  have idle : (s.later t).idleFor (s.later t).gapBits = true :=
    (idleFor_iff ..).mpr ⟨quiet, transmits_of_grounded grounded, gap⟩
  have free : (s.later t).line.flight.isNone = true := by rw [later_line, grounded]; rfl
  refine congrArg Host.Outcome.next ?_
  rw [whileActive_later t _ active, idle, free, Bool.and_self, if_pos rfl]
  cases (s.later t).chosen <;> rfl

section

variable {s : State} {n : Notice}

theorem chosen_urgent (oldest : s.line.urgent.find? s.eligible = some n) : s.chosen = some n := by
  rw [State.chosen, oldest]

theorem find?_ineligible {q : List Notice} (held : ∀ m ∈ q, s.eligible m = false) : q.find? s.eligible = none :=
  List.find?_eq_none.mpr fun m member => by simp [held m member]

theorem chosen_routine (held : ∀ m ∈ s.line.urgent, s.eligible m = false) :
    s.chosen = s.line.routine.find? s.eligible := by
  have urgent := find?_ineligible held
  rw [State.chosen, urgent]

theorem beginNotice_urgent (urgent : n.urgent = true) (quiet : s.line.receiving = false) : s.beginNotice n =
    { s with line := { s.line with
      urgent := s.line.urgent.erase n
      flight := some { notice := n, attempts := 1, phase := .sending s.clock } } } := by
  rw [State.beginNotice, ← quiet, urgent]
  rfl

theorem beginNotice_routine (routine : n.urgent = false) (quiet : s.line.receiving = false) : s.beginNotice n =
    { s with line := { s.line with
      routine := s.line.routine.erase n
      flight := some { notice := n, attempts := 1, phase := .sending s.clock } } } := by
  rw [State.beginNotice, ← quiet, routine]
  rfl

end

/-- Settles O49: the notice chosen is the first eligible one of its queue, and leaves it. -/
theorem firstAttemptTakesTheOldestEligible : Obligations.FirstAttemptTakesTheOldestEligible := by
  refine ⟨eligible_iff, fun t s active grounded quiet gap => ⟨?urgent, fun noUrgent => ⟨?routine, ?nothing⟩⟩⟩
  all_goals rw [exec_firstAttempt active grounded quiet gap]
  case urgent =>
    intro n ahead behind split passed taken urgent
    rw [chosen_urgent (s := s.later t) (find?_oldest split passed taken)]
    rw [Option.elim_some, beginNotice_urgent (s := s.later t) urgent quiet, later_line, erase_oldest split passed taken]
    rfl
  all_goals rw [chosen_routine (s := s.later t) noUrgent]
  case routine =>
    intro n ahead behind split passed taken routine
    rw [later_line, find?_oldest split passed taken]
    rw [Option.elim_some, beginNotice_routine (s := s.later t) routine quiet, later_line,
      erase_oldest split passed taken]
    rfl
  case nothing =>
    intro noRoutine
    rw [later_line, find?_ineligible noRoutine, Option.elim_none]

/-! ## The end of an attempt (R171 to R173) -/

section

variable {s : State} {t : Nat} {f : SendFlight}

theorem exec_collision {since : Nat} (active : s.start.phase = .active) (flight : s.line.flight = some f)
    (sends : f.phase = .sending since) : exec (.collision t) s = .next
      (if max s.clock t ≤ since + (16 + 8 * (9 + f.notice.payload.length)) * s.bitTime then (s.later t).collide f
      else s.later t) := by
  refine congrArg Host.Outcome.next ?_
  rw [whileActive_later t _ active]
  simp only [later_line, flight, sends]
  rfl

theorem exec_noticeSent {since : Nat} (active : s.start.phase = .active) (flight : s.line.flight = some f)
    (sends : f.phase = .sending since) : exec (.noticeSent t) s = .next
      (if since + (16 + 8 * (9 + f.notice.payload.length)) * s.bitTime ≤ max s.clock t then
        (s.later t).sent (since + (16 + 8 * (9 + f.notice.payload.length)) * s.bitTime)
      else s.later t) := by
  refine congrArg Host.Outcome.next ?_
  rw [whileActive_later t _ active]
  simp only [later_line, flight, sends]
  rfl

theorem exec_jamEnd {ends : Nat} (active : s.start.phase = .active) (flight : s.line.flight = some f)
    (jams : f.phase = .jamming ends) (ended : ends ≤ max s.clock t) :
    exec (.jamEnd t) s = .next ((s.later t).jamEnds f ends) := by
  refine congrArg Host.Outcome.next ?_
  rw [whileActive_later t _ active]
  simp only [later_line, later_clock, flight, jams, ended, if_true]

theorem exec_retryAttempt {ends : Nat} (active : s.start.phase = .active) (flight : s.line.flight = some f)
    (waits : f.phase = .backingOff ends) (ended : ends ≤ max s.clock t) (quiet : s.line.receiving = false)
    (gap : s.line.lastTransition + 24 * s.bitTime ≤ max s.clock t) :
    exec (.retryAttempt t) s = .next { s.later t with line := { s.line with
      flight := some { f with attempts := f.attempts + 1, phase := .sending (max s.clock t) } } } := by
  have silent : s.transmits = false := by simp [State.transmits, flight, waits]
  have idle : (s.later t).idleFor 24 = true := (idleFor_iff ..).mpr ⟨quiet, silent, gap⟩
  refine congrArg Host.Outcome.next ?_
  rw [whileActive_later t _ active]
  simp only [later_line, later_clock, flight, waits, ended, idle, decide_true, Bool.and_self, if_true, ← quiet]
  rfl

end

/-- R172: the new bit stands at the least significant end, and every other bit moves up by one. -/
theorem lfsrStep_bits (r : BitVec 16) : (lfsrStep r).getLsbD 0 =
      (((r.getLsbD 15).xor (r.getLsbD 13)).xor ((r.getLsbD 12).xor (r.getLsbD 10))) ∧
    ∀ k, k < 15 → (lfsrStep r).getLsbD (k + 1) = r.getLsbD k := by
  have single : ∀ (bit : Bool) (k : Nat), (BitVec.ofNat 16 bit.toNat).getLsbD k = (decide (k = 0) && bit) := by
    intro bit k
    cases bit
    · simp
    · simp [BitVec.getLsbD_one]
  simp only [lfsrStep, BitVec.getLsbD_or, BitVec.getLsbD_shiftLeft, single]
  refine ⟨by simp, fun k few => ?_⟩
  simp [Nat.succ_lt_succ few]

/-- Settles O50: each command by its equation above, and the register bit by bit. -/
theorem attemptsEndInSendingOrBackOff : Obligations.AttemptsEndInSendingOrBackOff := by
  refine ⟨fun t since s f active flight sends => ⟨fun early => ?_, fun late => ?_, ?sent⟩,
    fun t ends s f active flight jams ended => ⟨?backOff, fun last => ?_⟩,
    fun t ends s f active flight waits ended quiet gap => exec_retryAttempt active flight waits ended quiet gap,
    lfsrStep_bits, fun r => rfl⟩
  · rw [exec_collision active flight sends, if_pos early]
    rfl
  · rw [exec_collision active flight sends, if_neg (Nat.not_le.mpr late)]
  case sent =>
    rintro _ rfl ended
    rw [exec_noticeSent active flight sends, if_pos ended]
    rfl
  case backOff =>
    rintro few _ rfl
    rw [exec_jamEnd active flight jams ended]
    exact congrArg _ (if_pos few)
  · rw [exec_jamEnd active flight jams ended]
    exact congrArg _ (if_neg (Nat.not_lt.mpr last))

end Sys2Proof.Machine
end

section
/-! What the blocks leave of the line unit as they take a notice: they hand notices to the outbound queues, and no more
(R167, R176, R178). -/

namespace Sys2Proof.Machine

/-- The line unit but for its outbound queues, to which every block hands notices (R167). -/
def LineUnit.exceptOutbound (l : LineUnit) : LineUnit := { l with urgent := [], routine := [] }

/-! ## Handing (R167) -/

@[simp] theorem hand_exceptOutbound (s : State) (n : Notice) :
    (s.hand n).line.exceptOutbound = s.line.exceptOutbound := by
  rcases hand_cases s n with ⟨_, q, _, h⟩ | ⟨_, q, _, h⟩ | h <;> rw [h] <;> rfl

/-! ## The piecing dispatcher (R66 to R77, R84) -/

section

variable (s : State)

@[simp] theorem openCall_exceptOutbound (n : Nat) : (s.openCall n).line.exceptOutbound = s.line.exceptOutbound := by
  simp [State.openCall]

@[simp] theorem walkAt_exceptOutbound (n : Nat) : (s.walkAt n).line.exceptOutbound = s.line.exceptOutbound := by
  unfold State.walkAt
  split <;> simp

@[simp] theorem walk_exceptOutbound : s.walk.line.exceptOutbound = s.line.exceptOutbound := by
  unfold State.walk
  split
  · exact foldl_keeps (fun u : State => u.line.exceptOutbound) State.walkAt (by simp) _ _
  · rfl

@[simp] theorem endCall_exceptOutbound (reason : CloseReason) (c : Call) :
    (s.endCall reason c).line.exceptOutbound = s.line.exceptOutbound := by
  simp [State.endCall]

@[simp] theorem endCalls_exceptOutbound (reason : CloseReason) (calls : List Call) :
    (s.endCalls reason calls).line.exceptOutbound = s.line.exceptOutbound :=
  foldl_keeps (fun u : State => u.line.exceptOutbound) (fun u c => u.endCall reason c) (by simp) _ _

@[simp] theorem cancelAll_exceptOutbound : s.cancelAll.line.exceptOutbound = s.line.exceptOutbound :=
  (foldl_keeps (fun u : State => u.line.exceptOutbound) (fun u (c : Call) => u.releaseSpindle c.spindle none)
    (by simp) _ _).trans (by simp)

@[simp] theorem acceptTake_exceptOutbound (c : Call) (src : Nat) :
    (s.acceptTake c src).line.exceptOutbound = s.line.exceptOutbound := by
  simp [State.acceptTake]

@[simp] theorem takeTake_exceptOutbound (src number spindle : Nat) :
    (s.takeTake src number spindle).line.exceptOutbound = s.line.exceptOutbound := by
  unfold State.takeTake
  repeat' split
  all_goals simp

end

/-! ## Run-outs and asks (R123, R130 to R134) -/

section

variable (s : State)

@[simp] theorem runOutSpindles_exceptOutbound (creel : Nat) :
    (s.runOutSpindles creel).line.exceptOutbound = s.line.exceptOutbound := by
  simp only [State.runOutSpindles]
  split <;> simp

@[simp] theorem handAsk_exceptOutbound (recs : List SupplyRec) :
    (s.handAsk recs).line.exceptOutbound = s.line.exceptOutbound := by
  simp [State.handAsk]

@[simp] theorem handAsks_exceptOutbound (recs : List SupplyRec) :
    (s.handAsks recs).line.exceptOutbound = s.line.exceptOutbound :=
  foldl_keeps (fun u : State => u.line.exceptOutbound) State.handAsk (by simp) _ _

@[simp] theorem becomeRunOut_exceptOutbound (creel : Nat) :
    (s.becomeRunOut creel).line.exceptOutbound = s.line.exceptOutbound := by
  simp [State.becomeRunOut]

@[simp] theorem askRunOut_exceptOutbound (creels : List Nat) :
    (s.askRunOut creels).line.exceptOutbound = s.line.exceptOutbound := by
  simp [State.askRunOut]

@[simp] theorem recordBreak_exceptOutbound (creel : Nat) :
    (s.recordBreak creel).line.exceptOutbound = s.line.exceptOutbound := by
  simp only [State.recordBreak]
  repeat' split
  all_goals simp

@[simp] theorem batchRunsOut_exceptOutbound : s.batchRunsOut.line.exceptOutbound = s.line.exceptOutbound := by
  simp only [State.batchRunsOut]
  split <;> simp

@[simp] theorem startBatch_exceptOutbound : s.startBatch.line.exceptOutbound = s.line.exceptOutbound := by
  unfold State.startBatch
  repeat' split
  all_goals simp

@[simp] theorem askAgain_exceptOutbound (creels : List Nat) :
    (s.askAgain creels).line.exceptOutbound = s.line.exceptOutbound := by
  simp [State.askAgain]

@[simp] theorem railRestarts_exceptOutbound : s.railRestarts.line.exceptOutbound = s.line.exceptOutbound := by
  simp only [State.railRestarts]
  split <;> simp

@[simp] theorem doneFailed_exceptOutbound (c : Call) (noRoving : Bool) :
    (s.doneFailed c noRoving).line.exceptOutbound = s.line.exceptOutbound := by
  simp only [State.doneFailed]
  split <;> simp

@[simp] theorem takeDone_exceptOutbound (src number spindle result reason : Nat) :
    (s.takeDone src number spindle result reason).line.exceptOutbound = s.line.exceptOutbound := by
  unfold State.takeDone
  repeat' split
  all_goals simp

end

/-! ## The frame and doff unit (R92 to R103, R108) -/

section

variable (s : State)

@[simp] theorem buildForecast_exceptOutbound : s.buildForecast.line.exceptOutbound = s.line.exceptOutbound := by
  simp [State.buildForecast]

@[simp] theorem forecastIfMoved_exceptOutbound : s.forecastIfMoved.line.exceptOutbound = s.line.exceptOutbound := by
  unfold State.forecastIfMoved
  split <;> simp

@[simp] theorem makeClaim_exceptOutbound (answer : ClaimAnswer) :
    (s.makeClaim answer).line.exceptOutbound = s.line.exceptOutbound := by
  simp [State.makeClaim]

@[simp] theorem dofferRestarts_exceptOutbound : s.dofferRestarts.line.exceptOutbound = s.line.exceptOutbound := by
  unfold State.dofferRestarts
  split <;> simp

@[simp] theorem leaveCalling_exceptOutbound (new : FrameMode) :
    (s.leaveCalling new).line.exceptOutbound = s.line.exceptOutbound := by
  unfold State.leaveCalling
  split <;> simp

@[simp] theorem enterFullStop_exceptOutbound : s.enterFullStop.line.exceptOutbound = s.line.exceptOutbound := by
  simp only [State.enterFullStop]
  repeat' split
  all_goals simp

@[simp] theorem entryActions_exceptOutbound (new : FrameMode) :
    (s.entryActions new).line.exceptOutbound = s.line.exceptOutbound := by
  cases new <;> simp [State.entryActions]

@[simp] theorem changeMode_exceptOutbound (new : FrameMode) (reason : Option StopReason) :
    (s.changeMode new reason).line.exceptOutbound = s.line.exceptOutbound := by
  simp [State.changeMode]

@[simp] theorem completeDoff_exceptOutbound : s.completeDoff.line.exceptOutbound = s.line.exceptOutbound := by
  unfold State.completeDoff
  split <;> simp

@[simp] theorem takeDoffStart_exceptOutbound (src : Nat) :
    (s.takeDoffStart src).line.exceptOutbound = s.line.exceptOutbound := by
  unfold State.takeDoffStart
  repeat' split
  all_goals simp

@[simp] theorem takeDoffEnd_exceptOutbound (src : Nat) :
    (s.takeDoffEnd src).line.exceptOutbound = s.line.exceptOutbound := by
  unfold State.takeDoffEnd
  split <;> simp

@[simp] theorem takeDoffAbort_exceptOutbound (src : Nat) :
    (s.takeDoffAbort src).line.exceptOutbound = s.line.exceptOutbound := by
  unfold State.takeDoffAbort
  split <;> simp

end

/-! ## The tally unit (R149 to R160) -/

section

variable (s : State)

@[simp] theorem handTally_exceptOutbound (dst : Nat) (o : OpenShift) (closed : Bool) (minutes : Nat)
    (a b : SideValues) : (s.handTally dst o closed minutes a b).line.exceptOutbound = s.line.exceptOutbound := by
  simp [State.handTally]

@[simp] theorem takeQuery_exceptOutbound (src number : Nat) :
    (s.takeQuery src number).line.exceptOutbound = s.line.exceptOutbound := by
  unfold State.takeQuery State.answerOpen State.answerClosed State.answerNone
  repeat' split
  all_goals simp

@[simp] theorem takeShiftChange_exceptOutbound (src closing opening stamp : Nat) :
    (s.takeShiftChange src closing opening stamp).line.exceptOutbound = s.line.exceptOutbound := by
  unfold State.takeShiftChange
  repeat' split
  all_goals simp

end

/-! ## Every block, and the test of the own HOLD (R178 to R180) -/

/-- A block that takes a notice leaves the line unit but for the outbound queues. -/
@[simp] theorem takeNotice_exceptOutbound (s : State) (n : Notice) :
    (s.takeNotice n).line.exceptOutbound = s.line.exceptOutbound := by
  simp only [State.takeNotice]
  split <;> simp

/-- What two line units agree in that differ in their outbound queues alone. -/
theorem fields_of_exceptOutbound {a b : LineUnit} (h : a.exceptOutbound = b.exceptOutbound) :
    a.inbound = b.inbound ∧ a.busy = b.busy ∧ a.ownHold = b.ownHold ∧ a.peers = b.peers ∧ a.isolated = b.isolated ∧
      a.isolationStart = b.isolationStart :=
  ⟨(congrArg LineUnit.inbound h :), (congrArg LineUnit.busy h :), (congrArg LineUnit.ownHold h :),
    (congrArg LineUnit.peers h :), (congrArg LineUnit.isolated h :), (congrArg LineUnit.isolationStart h :)⟩

section

variable (s : State) (n : Notice)

@[simp] theorem hand_fields : (s.hand n).line.inbound = s.line.inbound ∧ (s.hand n).line.busy = s.line.busy ∧
    (s.hand n).line.ownHold = s.line.ownHold ∧ (s.hand n).line.peers = s.line.peers ∧
    (s.hand n).line.isolated = s.line.isolated ∧ (s.hand n).line.isolationStart = s.line.isolationStart :=
  fields_of_exceptOutbound (hand_exceptOutbound s n)

@[simp] theorem takeNotice_fields : (s.takeNotice n).line.inbound = s.line.inbound ∧
    (s.takeNotice n).line.busy = s.line.busy ∧ (s.takeNotice n).line.ownHold = s.line.ownHold ∧
    (s.takeNotice n).line.peers = s.line.peers ∧ (s.takeNotice n).line.isolated = s.line.isolated ∧
    (s.takeNotice n).line.isolationStart = s.line.isolationStart :=
  fields_of_exceptOutbound (takeNotice_exceptOutbound s n)

/-- The test of the own HOLD moves its expiry besides the outbound queues. -/
@[simp] theorem testHold_fields : s.testHold.line.inbound = s.line.inbound ∧ s.testHold.line.busy = s.line.busy ∧
    s.testHold.line.isolated = s.line.isolated ∧ s.testHold.line.isolationStart = s.line.isolationStart := by
  unfold State.testHold
  repeat' split
  all_goals simp

@[simp] theorem handHead_inbound (rest : List Notice) (block : Block) :
    (s.handHead n rest block).line.inbound = rest := by
  simp [State.handHead]

end

/-! ## Isolation (R186) -/

section

variable (s : State) (n : Notice)

@[simp] theorem handHead_isolation (rest : List Notice) (block : Block) :
    (s.handHead n rest block).line.isolated = s.line.isolated ∧
      (s.handHead n rest block).line.isolationStart = s.line.isolationStart := by
  simp [State.handHead]

@[simp] theorem handHeads_isolation (fuel : Nat) : (s.handHeads fuel).line.isolated = s.line.isolated ∧
    (s.handHeads fuel).line.isolationStart = s.line.isolationStart := by
  induction fuel generalizing s with
  | zero => exact ⟨rfl, rfl⟩
  | succ fuel ih =>
    unfold State.handHeads
    repeat' split
    all_goals simp [ih]

@[simp] theorem queueInbound_isolation : (s.queueInbound n).line.isolated = s.line.isolated ∧
    (s.queueInbound n).line.isolationStart = s.line.isolationStart := by
  unfold State.queueInbound State.placeInbound
  repeat' split
  all_goals simp

@[simp] theorem freshHello_isolation (src : Nat) : (s.freshHello src).line.isolated = s.line.isolated ∧
    (s.freshHello src).line.isolationStart = s.line.isolationStart := by
  have kept : (s.freshHello src).line.exceptOutbound = s.line.exceptOutbound := by
    simp only [State.freshHello]
    repeat' split
    all_goals simp
  obtain ⟨_, _, _, _, isolated, since⟩ := fields_of_exceptOutbound kept
  exact ⟨isolated, since⟩

/-- Nothing that the acceptance of a notice causes ends isolation or begins it. -/
@[simp] theorem accept_isolation : (s.accept n).line.isolated = s.line.isolated ∧
    (s.accept n).line.isolationStart = s.line.isolationStart := by
  simp only [State.accept, State.peerHolds, State.editPeer, State.withPeers]
  repeat' split
  all_goals simp

end

end Sys2Proof.Machine
end

section
/-! The peer table: what a notice of each kind sets in its sender's entry, and the entry that a new station replaces
(R175, R176, R181 to R184, R200). -/

namespace Sys2Proof.Machine

/-! ## The kind of an entry (R183) -/

section

variable (p : Peer) (kind : PeerKind)

theorem setKind_same (same : p.kind = kind) : p.setKind kind = p := if_pos same

theorem setKind_changed (other : p.kind ≠ kind) : p.setKind kind =
    { p with kind := kind, group := if kind = .frame then p.group else none,
             patrol := if kind = .piecer then p.patrol else [],
             forecast := if kind = .frame then p.forecast else none } := if_neg other

@[simp] theorem setKind_fields : (p.setKind kind).kind = kind ∧ (p.setKind kind).lastHeard = p.lastHeard ∧
    (p.setKind kind).holdUntil = p.holdUntil := by
  by_cases same : p.kind = kind
  · simp [setKind_same, same]
  · simp [setKind_changed, same]

end

theorem peerKindOfCode_eq (code : Nat) : peerKindOfCode code =
    (if code = 1 then .frame else if code = 2 then .piecer else if code = 3 then .doffer
      else if code = 4 then .rail else if code = 5 then .office else .unknown) := by
  match code with
  | 0 | 1 | 2 | 3 | 4 | 5 => rfl
  | n + 6 => simp [peerKindOfCode]

/-! ## What one notice sets (R183, R200) -/

/-- The kind of the station that sends a kind of notice which sets no more than that (R183); HELLO, PATROL and FORECAST
set fields besides, and HOLD sets no kind. -/
def Kind.tells : Kind → Option PeerKind
  | .hello | .patrol | .forecast | .hold => none
  | .take | .done => some .piecer
  | .doffQueued | .doffGrant | .doffStart | .doffEnd | .doffAbort => some .doffer
  | .rovingAck | .rovingDefer | .rovingLaid => some .rail
  | .shiftChange | .unlock | .tallyQuery => some .office
  | .call | .cancel | .assign | .close | .doffClaim | .doffRefuse | .rovingAsk | .tally | .tallyNone => some .frame

/-- An entry whose station is heard at a moment (R183). -/
def Peer.heardAt (p : Peer) (now : Nat) : Peer := { p with lastHeard := now }

section

variable {p : Peer} {n : Notice} {now : Nat} {kind : PeerKind}

theorem learn_of_tells {k : Kind} (is : n.kind = some k) (tells : k.tells = some kind) :
    p.learn n now = (p.heardAt now).setKind kind := by
  cases k <;> cases tells <;> simp only [Peer.learn, is] <;> rfl

/-- R200: a notice that tells no kind of its sender leaves last heard alone. -/
theorem learn_kindless
    (kindless : n.kind = none ∨ n.kind = some .hold ∨ (n.kind = some .hello ∧ n.payload.length < 2)) :
    p.learn n now = p.heardAt now := by
  rcases kindless with is | is | ⟨is, short⟩
  · simp only [Peer.learn, is, Peer.heardAt]
  · simp only [Peer.learn, is, Peer.heardAt]
  · simp only [Peer.learn, is, Peer.learnHello, short, if_true, Peer.heardAt]

theorem learn_hello (is : n.kind = some .hello) : p.learn n now = (p.heardAt now).learnHello n.payload := by
  simp only [Peer.learn, is, Peer.heardAt]

theorem learnHello_two {payload : List Byte} (two : payload.length = 2) :
    p.learnHello payload = p.setKind (peerKindOfCode (byteAt payload 1)) := by
  simp [Peer.learnHello, two]

theorem learnHello_long {payload : List Byte} (long : 3 ≤ payload.length) :
    p.learnHello payload = if peerKindOfCode (byteAt payload 1) = .frame then
        { p.setKind .frame with group := some (byteAt payload 2) }
      else p.setKind (peerKindOfCode (byteAt payload 1)) := by
  have enough : ¬payload.length < 2 := by omega
  by_cases frame : peerKindOfCode (byteAt payload 1) = .frame <;> simp [Peer.learnHello, enough, long, frame]

theorem learn_patrol (is : n.kind = some .patrol) : p.learn n now =
    { (p.heardAt now).setKind .piecer with patrol := patrolOf (n.payload.map (fun b => b.toNat)) } := by
  simp only [Peer.learn, is, Peer.heardAt]

theorem learn_forecast (is : n.kind = some .forecast) :
    p.learn n now = (p.heardAt now).learnForecast n.payload now := by
  simp only [Peer.learn, is, Peer.heardAt]

theorem learnForecast_short {payload : List Byte} (short : payload.length < 7) :
    p.learnForecast payload now = p.setKind .frame := by
  simp [Peer.learnForecast, short]

/-- Whatever a notice sets, it sets last heard, and never hold-until. -/
theorem learn_lastHeard : (p.learn n now).lastHeard = now ∧ (p.learn n now).holdUntil = p.holdUntil := by
  cases is : n.kind with
  | none => simp [learn_kindless (.inl is), Peer.heardAt]
  | some k =>
    cases tells : k.tells with
    | some kind => simp [learn_of_tells is tells, Peer.heardAt]
    | none =>
      cases k <;> cases tells
      case hello.refl =>
        rw [learn_hello is, Peer.learnHello]
        dsimp only
        repeat' split
        all_goals simp [Peer.heardAt]
      case patrol.refl => simp [learn_patrol is, Peer.heardAt]
      case forecast.refl =>
        rw [learn_forecast is, Peer.learnForecast]
        dsimp only
        repeat' split
        all_goals simp [Peer.heardAt]
      case hold.refl => simp [learn_kindless (.inr (.inl is)), Peer.heardAt]

/-- R183, R200: the kind that a notice sets, with nothing besides. -/
theorem learn_kind (sets : ((n.kind = some .take ∨ n.kind = some .done) ∧ kind = .piecer) ∨
      ((∃ k ∈ [Kind.doffQueued, .doffGrant, .doffStart, .doffEnd, .doffAbort], n.kind = some k) ∧ kind = .doffer) ∨
      ((∃ k ∈ [Kind.rovingAck, .rovingDefer, .rovingLaid], n.kind = some k) ∧ kind = .rail) ∨
      ((∃ k ∈ [Kind.shiftChange, .unlock, .tallyQuery], n.kind = some k) ∧ kind = .office) ∨
      ((∃ k ∈ [Kind.call, .cancel, .assign, .close, .doffClaim, .doffRefuse, .rovingAsk, .tally, .tallyNone],
        n.kind = some k) ∧ kind = .frame) ∨
      (n.kind = some .forecast ∧ n.payload.length < 7 ∧ kind = .frame) ∨
      (n.kind = some .hello ∧ n.payload.length = 2 ∧ ∀ code, code = byteAt n.payload 1 →
        kind = (if code = 1 then .frame else if code = 2 then .piecer else if code = 3 then .doffer
          else if code = 4 then .rail else if code = 5 then .office else .unknown))) :
    p.learn n now = (p.heardAt now).setKind kind := by
  have listed : ∀ {ks : List Kind} {kind : PeerKind}, (∃ k ∈ ks, n.kind = some k) →
      (∀ k ∈ ks, k.tells = some kind) → p.learn n now = (p.heardAt now).setKind kind :=
    fun ⟨k, member, is⟩ tells => learn_of_tells is (tells k member)
  rcases sets with ⟨is | is, rfl⟩ | ⟨is, rfl⟩ | ⟨is, rfl⟩ | ⟨is, rfl⟩ | ⟨is, rfl⟩ | ⟨is, short, rfl⟩ | ⟨is, two, code⟩
  · exact learn_of_tells is rfl
  · exact learn_of_tells is rfl
  · exact listed is (by decide)
  · exact listed is (by decide)
  · exact listed is (by decide)
  · exact listed is (by decide)
  · rw [learn_forecast is, learnForecast_short short]
  · rw [learn_hello is, learnHello_two two, code _ rfl, peerKindOfCode_eq]

end

/-! ## The hearing of a notice (R175, R176, R182) -/

section

variable {s : State} {n : Notice}

/-- R175: a notice of a peer is heard and learned, and accepted when it is addressed to the part or to all. -/
theorem goodNotice_peer (low : n.src ≠ 0) (high : n.src ≤ 239) (peer : n.src ≠ s.start.strap) : s.goodNotice n =
    if n.dst = s.start.strap ∨ n.dst = 255 then (s.heard n).accept n else s.heard n := by
  rw [State.goodNotice, if_neg (by simp [low, high]), if_neg peer]
  simp only [Bool.or_eq_true, decide_eq_true_eq]
  rfl

@[simp] theorem heard_isolation : (s.heard n).line.isolated = false ∧ (s.heard n).line.isolationStart = s.clock := by
  rw [heard_eq]
  exact ⟨rfl, rfl⟩

/-- The sender's entry, old or new, takes what the notice sets. -/
theorem heard_peer {old : Peer} (known : s.peer n.src = some old ∨
    (s.peer n.src = none ∧ s.line.peers.length < 32 ∧ old = newPeer n.src s.nowMs)) :
    (s.heard n).peer n.src = some (old.learn n s.nowMs) :=
  (learn_effect s.hear n old known).1

/-- R176: a notice that no block takes, other than HOLD and the HELLO of a fresh start, leaves nothing but its
learning. -/
theorem accept_learned (unqueued : n.owner = none) (noHold : n.kind ≠ some .hold)
    (plain : n.kind = some .hello → n.fresh = false) : s.accept n = s := by
  have noHello : ¬(n.kind = some .hello && n.fresh) = true := by simpa using plain
  simp only [State.accept, unqueued, if_neg noHold, if_neg noHello, ite_self]

theorem accept_hold (is : n.kind = some .hold) (long : n.longEnough = true) :
    s.accept n = s.peerHolds n.src (byteAt n.payload 0) := by
  have unqueued : n.owner = none := by rw [Notice.owner, is]; rfl
  simp [State.accept, long, unqueued, is]

end

section

variable {s : State} {t : Nat} {n : Notice}

/-- The rows of the notices that the line unit acts on itself: each is a peer's notice to 255 (log 11). -/
theorem unqueued_heard (listens : s.underWay) (low : 1 ≤ n.src) (high : n.src ≤ 239) (peer : n.src ≠ s.start.strap)
    (toAll : n.dst = 255) : s.whileListening t (fun s => s.goodNotice n) = ((s.later t).heard n).accept n := by
  rw [whileListening_later t _ listens, goodNotice_peer (s := s.later t) (Nat.pos_iff_ne_zero.mp low) high peer,
    if_pos (.inr toAll)]

end

/-! ## The patrol list (R183, R202) -/

theorem mem_dropRepeats (x : Nat) (l : List Nat) : ∀ seen, x ∈ dropRepeats seen l ↔ x ∈ l ∧ x ∉ seen := by
  induction l with
  | nil => simp [dropRepeats]
  | cons y ys ih =>
    intro seen
    unfold dropRepeats
    split
    · next repeated =>
      have old : y ∈ seen := by simpa using repeated
      rw [ih seen, List.mem_cons]
      refine and_congr_left fun fresh => ⟨Or.inr, fun either => either.resolve_left ?_⟩
      rintro rfl
      exact fresh old
    · next fresh =>
      have new : y ∉ seen := by simpa using fresh
      by_cases same : x = y
      · simp [same, new]
      · simp [ih, same]

theorem dropRepeats_sublist (l : List Nat) : ∀ seen, (dropRepeats seen l).Sublist l := by
  induction l with
  | nil => exact fun _ => List.Sublist.refl _
  | cons y ys ih =>
    intro seen
    unfold dropRepeats
    split
    · exact (ih seen).cons y
    · exact (ih (y :: seen)).cons_cons y

theorem dropRepeats_nodup (l : List Nat) : ∀ seen, (dropRepeats seen l).Nodup := by
  induction l with
  | nil => exact fun _ => List.nodup_nil
  | cons y ys ih =>
    intro seen
    unfold dropRepeats
    split
    · exact ih seen
    · exact List.nodup_cons.mpr ⟨fun member => ((mem_dropRepeats y ys _).mp member).2 (List.mem_cons_self ..), ih _⟩

theorem patrolOf_spec (stations : List Nat) : (patrolOf stations).Nodup ∧
    (patrolOf stations).Sublist (stations.take 16) ∧
    ∀ x, x ∈ patrolOf stations ↔ x ∈ stations.take 16 ∧ 1 ≤ x ∧ x ≤ 239 :=
  ⟨dropRepeats_nodup _ _, (dropRepeats_sublist _ _).trans List.filter_sublist,
    fun x => by simp [patrolOf, mem_dropRepeats]⟩

/-- Station numbers survive their bytes. -/
theorem patrol_bytes {stations : List Nat} (fit : ∀ x ∈ stations, x < 256) :
    (stations.map (fun n => BitVec.ofNat 8 n)).map (fun b => b.toNat) = stations := by
  have whole : ∀ x ∈ stations, (BitVec.ofNat 8 x).toNat = x := fun x member => Nat.mod_eq_of_lt (fit x member)
  rw [List.map_map]
  exact (List.map_congr_left whole).trans (List.map_id' stations)

/-! ## Replacement (R184) -/

/-- R184: `a` is replaced no later than `b`. -/
def Peer.olderThan (a b : Peer) : Prop :=
  a.lastHeard < b.lastHeard ∨ (a.lastHeard = b.lastHeard ∧ a.station ≤ b.station)

theorem replacedBefore_iff (a b : Peer) : replacedBefore a b = true ↔ a.olderThan b := by
  simp [replacedBefore, Peer.olderThan]

theorem isProtected_iff (s : State) (p : Peer) : s.isProtected p = true ↔
    p.station = s.cfg.dofferStation ∨ p.station = s.cfg.railStation ∨
      ∃ c ∈ s.pieces.calls, c.carriage = some p.station := by
  simp [State.isProtected, or_assoc]

theorem eq_of_station_eq {peers : List Peer} (nodup : (peers.map (fun p => p.station)).Nodup) {p q : Peer}
    (left : p ∈ peers) (right : q ∈ peers) (same : p.station = q.station) : p = q := by
  induction peers with
  | nil => cases left
  | cons first rest ih =>
    obtain ⟨alone, others⟩ := List.nodup_cons.mp nodup
    rcases List.mem_cons.mp left with pFirst | pLater <;> rcases List.mem_cons.mp right with qFirst | qLater
    · exact pFirst.trans qFirst.symm
    · exact absurd (List.mem_map.mpr ⟨q, qLater, same.symm.trans (congrArg Peer.station pFirst)⟩) alone
    · exact absurd (List.mem_map.mpr ⟨p, pLater, same.trans (congrArg Peer.station qFirst)⟩) alone
    · exact ih others pLater qLater

/-- R184: of the unprotected entries the one replaced is no younger than any. -/
theorem replaceable_eq {s : State} {old : Peer} (nodup : (s.line.peers.map (fun p => p.station)).Nodup)
    (member : old ∈ s.line.peers) (free : s.isProtected old = false)
    (least : ∀ p ∈ s.line.peers, s.isProtected p = false → old.olderThan p) : s.replaceable = some old := by
  have sorted : (sortBy replacedBefore (s.line.peers.filter (fun p => !s.isProtected p))).Pairwise Peer.olderThan := by
    refine sortBy_pairwise ?_ (fun a b => (replacedBefore_iff a b).mp) ?_ _
    · unfold Peer.olderThan
      intro a b c
      omega
    · intro a b later
      have not := mt (replacedBefore_iff a b).mpr (Bool.eq_false_iff.mp later)
      unfold Peer.olderThan at not ⊢
      omega
  have among : ∀ p, p ∈ sortBy replacedBefore (s.line.peers.filter (fun p => !s.isProtected p)) ↔
      p ∈ s.line.peers ∧ s.isProtected p = false := fun p => by
    rw [(sortBy_perm replacedBefore _).mem_iff]
    simp
  unfold State.replaceable
  have stands := (among old).mpr ⟨member, free⟩
  cases list : sortBy replacedBefore (s.line.peers.filter (fun p => !s.isProtected p)) with
  | nil =>
    rw [list] at stands
    cases stands
  | cons p rest =>
    rw [list] at stands sorted among
    obtain ⟨first, -⟩ := List.pairwise_cons.mp sorted
    obtain ⟨inTable, unprotected⟩ := (among p).mp (List.mem_cons_self ..)
    rcases List.mem_cons.mp stands with rfl | later
    · rfl
    · have before := first old later
      have after := least p inTable unprotected
      have same : p.station = old.station := by
        unfold Peer.olderThan at before after
        omega
      rw [eq_of_station_eq nodup inTable member same]
      rfl

/-- R184: a station that has no entry takes the place of the replaceable one when the table is full. -/
theorem makePeer_replaces {s : State} {src : Nat} {old : Peer} (unknown : s.peer src = none)
    (full : s.line.peers.length = 32) (nodup : (s.line.peers.map (fun p => p.station)).Nodup)
    (member : old ∈ s.line.peers) (replaced : s.replaceable = some old) : (s.makePeer src).line.peers =
      s.line.peers.map (fun p => if p = old then newPeer src s.nowMs else p) := by
  have noRoom : ¬s.line.peers.length < Config.peerSlots := Nat.not_lt.mpr (Nat.le_of_eq full.symm)
  have made : s.makePeer src = s.withPeers
      (s.line.peers.map (fun p => if p.station = old.station then newPeer src s.nowMs else p)) := by
    rw [State.makePeer, unknown, if_neg noRoom, replaced]
    rfl
  rw [made]
  refine List.map_congr_left fun p inTable => ?_
  have same : p.station = old.station ↔ p = old :=
    ⟨eq_of_station_eq nodup inTable member, congrArg Peer.station⟩
  simp only [same]

/-! ## HOLD (R181), HELLO, PATROL and FORECAST (R183) from a peer -/

theorem peerHolds_peer (s : State) (station time : Nat) : (s.peerHolds station time).peer station =
    (s.peer station).map (fun p => { p with holdUntil := if time = 0 then none else some (s.nowMs + 4 * time) }) :=
  (editPeer_peer s station station
    (fun p => { p with holdUntil := if time = 0 then none else some (s.nowMs + 4 * time) }) fun _ => rfl).trans
    (if_pos rfl)

theorem peer_station {s : State} {station : Nat} {p : Peer} (entry : s.peer station = some p) :
    p.station = station := by
  simpa using List.find?_some entry

theorem byteAt_byteField {k : Nat} (fits : k < 256) : byteAt (byteField k) 0 = k :=
  byteAt_of_drop (rest := []) rfl (Nat.le_of_lt_succ fits)


/-- A HELLO of no fresh start (R185, R202). -/
def helloOf (src kind group : Nat) : Notice := { freshHelloOf src kind group with fresh := false }

/-- A HOLD to all stations (R181, R202). -/
def holdOf (src time : Nat) : Notice :=
  { dst := 255, src := src, kind := some .hold, fresh := false, reference := 0, payload := byteField time }

/-- A PATROL to all stations (R183, R202). -/
def patrolNoticeOf (src : Nat) (stations : List Nat) : Notice :=
  { dst := 255, src := src, kind := some .patrol, fresh := false, reference := 0,
    payload := stations.map (fun n => BitVec.ofNat 8 n) }

/-- A FORECAST to all stations (R183, R202). -/
def forecastOf (src group mode minutes fill : Nat) : Notice :=
  { dst := 255, src := src, kind := some .forecast, fresh := false, reference := 0,
    payload := byteField src ++ byteField group ++ byteField mode ++ wordField minutes ++ wordField fill }

section

variable {p : Peer} {now : Nat}

/-- What a HELLO makes of its sender's entry. -/
theorem learn_helloOf {src kind group : Nat} (kindFits : kind < 256) (groupFits : group < 256) :
    p.learn (helloOf src kind group) now = if peerKindOfCode kind = .frame then
        { (p.heardAt now).setKind .frame with group := some group }
      else (p.heardAt now).setKind (peerKindOfCode kind) := by
  have kindAt : byteAt (helloOf src kind group).payload 1 = kind :=
    byteAt_of_drop (rest := byteField group) rfl (Nat.le_of_lt_succ kindFits)
  have groupAt : byteAt (helloOf src kind group).payload 2 = group :=
    byteAt_of_drop (rest := []) rfl (Nat.le_of_lt_succ groupFits)
  have long : 3 ≤ (helloOf src kind group).payload.length := Nat.le_refl 3
  rw [learn_hello rfl, learnHello_long long, kindAt, groupAt]

/-- Every field of an entry after a HELLO, against the entry before it (R183). -/
theorem learn_helloOf_fields {src kind group : Nat} (kindFits : kind < 256) (groupFits : group < 256) {q : Peer}
    (learned : p.learn (helloOf src kind group) now = q) : q.kind = peerKindOfCode kind ∧
      (q.kind = .frame → q.group = some group) ∧
      (q.kind ≠ p.kind → q.kind ≠ .frame → q.group = none ∧ q.forecast = none) ∧
      (q.kind ≠ p.kind → q.kind ≠ .piecer → q.patrol = []) ∧
      (q.kind = p.kind → q.forecast = p.forecast ∧ q.patrol = p.patrol) := by
  have kinds : (p.heardAt now).kind = p.kind := rfl
  rw [learn_helloOf kindFits groupFits] at learned
  subst learned
  by_cases frame : peerKindOfCode kind = .frame
  · rw [if_pos frame]
    by_cases same : p.kind = .frame
    · rw [setKind_same _ _ (kinds.trans same)]
      exact ⟨same.trans frame.symm, fun _ => rfl, fun other => absurd rfl other, fun other => absurd rfl other,
        fun _ => ⟨rfl, rfl⟩⟩
    · rw [setKind_changed _ _ (kinds.symm ▸ same)]
      exact ⟨frame.symm, fun _ => rfl, fun _ other => absurd rfl other, fun _ _ => rfl, fun is => absurd is.symm same⟩
  · rw [if_neg frame]
    by_cases same : p.kind = peerKindOfCode kind
    · rw [setKind_same _ _ (kinds.trans same)]
      exact ⟨same, fun is => absurd (same.symm.trans is) frame, fun other => absurd rfl other,
        fun other => absurd rfl other, fun _ => ⟨rfl, rfl⟩⟩
    · rw [setKind_changed _ _ (kinds.symm ▸ same)]
      exact ⟨rfl, fun is => absurd is frame, fun _ _ => ⟨if_neg frame, if_neg frame⟩, fun _ other => if_neg other,
        fun is => absurd is.symm same⟩

theorem modeOfCode_modeCode (m : FrameMode) : modeOfCode (modeCode m) = some m := by cases m <;> rfl

theorem modeOfCode_high {code : Nat} (high : 7 < code) : modeOfCode code = none := by
  obtain ⟨k, rfl⟩ := Nat.exists_eq_add_of_le' high
  rfl

/-- What a FORECAST makes of its sender's entry, and of its forecast fields by its mode and its minutes. -/
theorem learn_forecastOf {src group mode minutes fill : Nat} (groupFits : group < 256) (modeFits : mode < 256)
    (minutesFit : minutes < 65536) : ∃ forecast, p.learn (forecastOf src group mode minutes fill) now =
        { (p.heardAt now).setKind .frame with group := some group, forecast := forecast } ∧
      (minutes ≤ 999 → ∀ m, modeCode m = mode → forecast = some ⟨minutes, now, m⟩) ∧
      ((999 < minutes ∨ 7 < mode) → forecast = ((p.heardAt now).setKind .frame).forecast) := by
  have groupAt : byteAt (forecastOf src group mode minutes fill).payload 1 = group :=
    byteAt_of_drop (rest := byteField mode ++ wordField minutes ++ wordField fill) rfl (Nat.le_of_lt_succ groupFits)
  have modeAt : byteAt (forecastOf src group mode minutes fill).payload 2 = mode :=
    byteAt_of_drop (rest := wordField minutes ++ wordField fill) rfl (Nat.le_of_lt_succ modeFits)
  have minutesAt : wordAt (forecastOf src group mode minutes fill).payload 3 = minutes :=
    wordAt_of_drop (rest := wordField fill) rfl (Nat.le_of_lt_succ minutesFit)
  have long : ¬(forecastOf src group mode minutes fill).payload.length < 7 := Nat.lt_irrefl 7
  rw [learn_forecast rfl, Peer.learnForecast, if_neg long, groupAt, modeAt, minutesAt]
  cases known : modeOfCode mode with
  | none =>
    refine ⟨_, rfl, fun _ m is => ?_, fun _ => rfl⟩
    rw [← is, modeOfCode_modeCode] at known
    cases known
  | some m =>
    have low : ¬7 < mode := fun high => by
      rw [modeOfCode_high high] at known
      cases known
    by_cases few : minutes ≤ 999
    · refine ⟨some ⟨minutes, now, m⟩, if_pos few, fun _ m' is => ?_, fun either => ?_⟩
      · rw [← is, modeOfCode_modeCode] at known
        rw [Option.some.inj known]
      · exact absurd either (by omega)
    · exact ⟨_, if_neg few, fun short => absurd short few, fun _ => rfl⟩

end

section

variable {s : State} {t src now : Nat} {old : Peer} (listens : s.underWay) (low : 1 ≤ src) (high : src ≤ 239)
  (peer : src ≠ s.start.strap) (known : s.peer src = some old ∨
    (s.peer src = none ∧ s.line.peers.length < 32 ∧ old = newPeer src (max s.clock t / 1000)))
include listens low high peer known

/-- R181: a HOLD is heard, and its time sets hold-until. -/
theorem exec_hold_heard {time : Nat} (fits : time < 256) : ∃ s', exec (.hold t src time) s = .next s' ∧
    s'.line.isolated = false ∧ s'.line.isolationStart = max s.clock t ∧ s'.peer src = some
      { old with lastHeard := max s.clock t / 1000
                 holdUntil := if time = 0 then none else some (max s.clock t / 1000 + 4 * time) } := by
  have acts : exec (.hold t src time) s =
      .next (s.whileListening t (fun s => s.goodNotice (holdOf src time))) := rfl
  have entry : ((s.later t).heard (holdOf src time)).peer src = some (old.learn (holdOf src time) (s.later t).nowMs) :=
    heard_peer known
  have timeAt : byteAt (holdOf src time).payload 0 = time := byteAt_byteField fits
  rw [acts, unqueued_heard (n := holdOf src time) listens low high peer rfl]
  refine ⟨_, rfl, by simp, by simp, ?_⟩
  have taken : ((s.later t).heard (holdOf src time)).accept (holdOf src time) =
      ((s.later t).heard (holdOf src time)).peerHolds src time :=
    (accept_hold rfl rfl).trans (congrArg _ timeAt)
  rw [taken, peerHolds_peer, entry, learn_kindless (.inr (.inl rfl))]
  simp [Peer.heardAt, State.nowMs]

/-- What is left of a notice that the line unit only learns: its sender's entry. -/
theorem learned_entry {n : Notice} (src_eq : n.src = src) (toAll : n.dst = 255) (unqueued : n.owner = none)
    (noHold : n.kind ≠ some .hold) (plain : n.fresh = false) :
    ∃ s' p, s.whileListening t (fun s => s.goodNotice n) = s' ∧ s'.peer src = some p ∧
      p = old.learn n (max s.clock t / 1000) ∧ p.station = src ∧ p.lastHeard = max s.clock t / 1000 ∧
      p.holdUntil = old.holdUntil := by
  subst src_eq
  have entry : ((s.later t).heard n).peer n.src = some (old.learn n (max s.clock t / 1000)) := heard_peer known
  have learned := accept_learned (s := (s.later t).heard n) unqueued noHold fun _ => plain
  exact ⟨_, _, (unqueued_heard listens low high peer toAll).trans learned, entry, rfl, peer_station entry,
    learn_lastHeard⟩

end

/-- Settles O53: the sender's entry by `learn_effect`, what each kind sets in it by the lemmas on `Peer.learn`, and the
replaced entry as the head of the sorted list. -/
theorem peersAreLearnedFromTheirNotices : Obligations.PeersAreLearnedFromTheirNotices := by
  refine ⟨fun s => rfl, ?learned, ?heard, ?replaced⟩
  case learned =>
    rintro s _ n old _ rfl known rfl
    obtain ⟨own, others, frame⟩ := learn_effect s n old known
    refine ⟨frame, others, fun kindless => ?_, fun kind sets => ?_⟩
    · rw [own, learn_kindless kindless]
      rfl
    · rw [own, learn_kind sets]
      exact ⟨fun same => congrArg some (setKind_same (old.heardAt s.nowMs) kind same),
        fun other => congrArg some (setKind_changed (old.heardAt s.nowMs) kind other)⟩
  case heard =>
    rintro t src s old _ listens low high peer rfl known
    refine ⟨fun time fits => exec_hold_heard listens low high peer known fits,
      fun kind group kindFits groupFits => ?hello, fun stations fit => ?patrol,
      fun group mode minutes fill groupFits modeFits minutesFit => ?forecast⟩
    case hello =>
      obtain ⟨s', p, acts, entry, learned, station, heardAt, holdUntil⟩ :=
        learned_entry (n := helloOf src kind group) listens low high peer known rfl rfl rfl nofun rfl
      obtain ⟨is, fields⟩ := learn_helloOf_fields kindFits groupFits learned.symm
      exact ⟨s', p, congrArg _ acts, entry, station, heardAt, holdUntil, is.trans (peerKindOfCode_eq kind), fields⟩
    case patrol =>
      obtain ⟨s', p, acts, entry, learned, -, heardAt, holdUntil⟩ :=
        learned_entry (n := patrolNoticeOf src stations) listens low high peer known rfl rfl rfl nofun rfl
      rw [learn_patrol rfl, patrolNoticeOf, patrol_bytes fit] at learned
      refine ⟨s', p, congrArg _ acts, entry, ?_, heardAt, holdUntil, ?_⟩
      · rw [learned]
        exact (setKind_fields _ .piecer).1
      · rw [learned]
        exact patrolOf_spec stations
    case forecast =>
      obtain ⟨s', p, acts, entry, learned, -, heardAt, holdUntil⟩ :=
        learned_entry (n := forecastOf src group mode minutes fill) listens low high peer known rfl rfl rfl nofun rfl
      obtain ⟨forecast, is, taken, left⟩ := learn_forecastOf (p := old) (now := max s.clock t / 1000) (src := src)
        (fill := fill) groupFits modeFits minutesFit
      rw [is] at learned
      refine ⟨s', p, congrArg _ acts, entry, ?_⟩
      subst learned
      refine ⟨(setKind_fields _ .frame).1, rfl, heardAt, holdUntil, taken, fun out frame => (left out).trans ?_⟩
      exact (congrArg Peer.forecast (setKind_same (old.heardAt (max s.clock t / 1000)) .frame frame) :)
  case replaced =>
    rintro s src old unknown full nodup member _ rfl free least
    have unprotected : ∀ p, s.isProtected p = false ↔ ¬(p.station = s.cfg.dofferStation ∨
        p.station = s.cfg.railStation ∨ ∃ c ∈ s.pieces.calls, c.carriage = some p.station) := fun p => by
      rw [← isProtected_iff, Bool.not_eq_true]
    exact makePeer_replaces unknown full nodup member (replaceable_eq nodup member ((unprotected old).mpr free)
      fun p inTable unguarded => least p inTable ((unprotected p).mp unguarded))

end Sys2Proof.Machine
end

section
/-! The frame on the line: its check, the notice it carries, and the classes of a received frame (R165, R166, R174,
R175, R186, R200, R201). -/

namespace Sys2Proof.Machine

/-! ## The bytes of a frame (R166, R174, R200) -/

theorem goodFrame_iff (bytes : List Byte) : goodFrame bytes = true ↔
    9 ≤ bytes.length ∧ bytes.length ≤ 41 ∧ byteAt bytes 6 ≤ 32 ∧ bytes.length = 9 + byteAt bytes 6 ∧
      wordAt bytes (bytes.length - 2) = (checkOf (bytes.take (bytes.length - 2))).toNat := by
  simp only [goodFrame, frameSized, carriedCheck, Bool.and_eq_true, decide_eq_true_eq, beq_iff_eq, and_assoc]

/-- R166: the check takes the bits of one more byte, the most significant first. -/
theorem checkOf_append (bytes : List Byte) (b : Byte) : checkOf (bytes ++ [b]) =
    (List.range 8).foldl (fun (reg : BitVec 16) (k : Nat) =>
      if reg.getLsbD 15 != b.getLsbD (7 - k) then (reg <<< 1) ^^^ 0x1021#16 else reg <<< 1) (checkOf bytes) := by
  have bits : [b].flatMap byteBits = (List.range 8).map (fun k => b.getLsbD (7 - k)) := rfl
  rw [checkOf, List.flatMap_append, List.foldl_append, bits, List.foldl_map]
  rfl

/-! ## The notice of a frame (R200, R201) -/

theorem ofCode_code (kind : Kind) : Kind.ofCode kind.code = some kind := by cases kind <;> rfl

theorem ofCode_iff (code : Nat) (kind : Kind) : Kind.ofCode code = some kind ↔ kind.code = code := by
  constructor
  · intro found
    simpa using List.find?_some found
  · rintro rfl
    exact ofCode_code kind

/-- R200: bit 0 of the flags tells a fresh start in a HELLO alone. -/
theorem noticeOf_fresh (bytes : List Byte) :
    (noticeOf bytes).fresh = true ↔ byteAt bytes 2 = 1 ∧ byteAt bytes 3 % 2 = 1 := by
  simp only [noticeOf, Bool.and_eq_true, beq_iff_eq, ofCode_iff, Kind.code, eq_comm (a := 1)]

/-! ## The end of a frame (R165, R166, R174) -/

section

variable {s : State} {t : Nat} {bytes : List Byte}

/-- R165: within 12 bit times of a transition, or while the part transmits, no frame ends. -/
theorem exec_receiveFrameEnd_early (listens : s.underWay)
    (early : s.transmits = true ∨ max s.clock t < s.line.lastTransition + 12 * s.bitTime) :
    exec (.receiveFrameEnd t bytes) s = .next (s.later t) := by
  refine (receiveFrameEnd_effect t bytes listens).1 (Bool.eq_false_iff.mpr fun quiet => ?_)
  obtain ⟨silent, idle⟩ := (quietFor_iff ..).mp quiet
  rcases early with sends | moved
  · exact Bool.false_ne_true (silent.symm.trans sends)
  · exact absurd idle (Nat.not_le.mpr moved)

theorem exec_receiveFrameEnd (listens : s.underWay) (silent : s.transmits = false)
    (idle : s.line.lastTransition + 12 * s.bitTime ≤ max s.clock t) : exec (.receiveFrameEnd t bytes) s = .next
      (if s.line.receiving = true then (s.later t).lineFalls.receiveBytes bytes else (s.later t).lineFalls) :=
  (receiveFrameEnd_effect t bytes listens).2 ((quietFor_iff ..).mpr ⟨silent, idle⟩)

end

/-! ## The classes of a frame (R174, R175) -/

section

variable {s : State} {n : Notice}

theorem goodNotice_outside (outside : n.src = 0 ∨ 239 < n.src) : s.goodNotice n = s.receiveError :=
  if_pos (by simpa using outside)

theorem goodNotice_clash (low : n.src ≠ 0) (high : n.src ≤ 239) (own : n.src = s.start.strap) :
    s.goodNotice n = s.withLine { s.line with clash := raise 255 1 s.line.clash } := by
  rw [State.goodNotice, if_neg (by simp [low, high]), if_pos own]

/-- R182: a station that has an entry, or finds a free place, is heard at this moment. -/
theorem heard_lastHeard (known : (s.peer n.src).isSome = true ∨ s.line.peers.length < 32) :
    ∃ p, (s.heard n).peer n.src = some p ∧ p.lastHeard = s.clock / 1000 := by
  cases entry : s.peer n.src with
  | some old => exact ⟨_, heard_peer (.inl entry), learn_lastHeard.1⟩
  | none =>
    have room : s.line.peers.length < 32 := by simpa [entry] using known
    exact ⟨_, heard_peer (.inr ⟨entry, room, rfl⟩), learn_lastHeard.1⟩

/-- R175, R186: a peer's notice ends isolation, is learned, and is accepted when it is addressed to the part or to
all. -/
theorem goodNotice_heard (low : n.src ≠ 0) (high : n.src ≤ 239) (peer : n.src ≠ s.start.strap) :
    (s.goodNotice n).line.isolated = false ∧ (s.goodNotice n).line.isolationStart = s.clock ∧
      (n.dst ≠ s.start.strap → n.dst ≠ 255 → s.goodNotice n = s.heard n) ∧
      (n.dst = s.start.strap ∨ n.dst = 255 → s.goodNotice n = (s.heard n).accept n) := by
  rw [goodNotice_peer low high peer]
  refine ⟨?_, ?_, fun notOwn notAll => if_neg ?_, fun addressed => if_pos addressed⟩
  · split <;> simp
  · split <;> simp
  · rintro (own | all)
    · exact notOwn own
    · exact notAll all

end

section

variable {s : State} {bytes : List Byte}

/-- A bad frame and one of a source out of range are receive errors. -/
theorem receiveBytes_error (bad : goodFrame bytes = false ∨ byteAt bytes 1 = 0 ∨ 239 < byteAt bytes 1) :
    s.receiveBytes bytes = s.receiveError := by
  cases good : goodFrame bytes with
  | false => simp [State.receiveBytes, good]
  | true =>
    have outside : byteAt bytes 1 = 0 ∨ 239 < byteAt bytes 1 := by simpa [good] using bad
    exact (if_pos good).trans (goodNotice_outside (n := noticeOf bytes) outside)

theorem receiveBytes_good (good : goodFrame bytes = true) : s.receiveBytes bytes = s.goodNotice (noticeOf bytes) :=
  if_pos good

end

/-- Settles O51: the bytes field by field, the codes by evaluation, and the class of a frame by the lemmas above. -/
theorem receivedFramesAreClassed : Obligations.ReceivedFramesAreClassed := by
  refine ⟨goodFrame_iff, ⟨rfl, checkOf_append⟩, fun bytes k => ⟨rfl, rfl, rfl⟩, ?notice, ⟨rfl, rfl, rfl, rfl, rfl⟩,
    fun t bytes s listens early => exec_receiveFrameEnd_early listens early, ?classes⟩
  case notice =>
    rintro bytes _ rfl
    exact ⟨rfl, rfl, ofCode_iff _, noticeOf_fresh bytes, rfl, rfl⟩
  case classes =>
    rintro t bytes s _ listens silent idle rfl
    rw [exec_receiveFrameEnd listens silent idle]
    refine ⟨fun unmarked => ?_, fun marked => ?_⟩
    · rw [if_neg (by simp [unmarked])]
      rfl
    rw [if_pos marked]
    refine ⟨fun bad => congrArg _ (receiveBytes_error bad), fun good low high own => ?clash,
      fun good low high peer => ?peer⟩
    case clash =>
      rw [receiveBytes_good good]
      exact congrArg _ (goodNotice_clash (n := noticeOf bytes) low high own)
    case peer =>
      rw [receiveBytes_good good]
      obtain ⟨isolated, since⟩ := heard_isolation (s := (s.later t).lineFalls) (n := noticeOf bytes)
      obtain ⟨ended, restarted, passed, accepted⟩ :=
        goodNotice_heard (s := (s.later t).lineFalls) (n := noticeOf bytes) low high peer
      exact ⟨_, _, rfl, rfl, isolated, since, ended, restarted, passed, accepted,
        fun known => heard_lastHeard (n := noticeOf bytes) known⟩

end Sys2Proof.Machine
end

section
/-! The inbound queue: which block takes a notice, what is dropped, the places of the queue with the own HOLD, and the
handing of its head notices (R176 to R180, R188, R200, R201). -/

namespace Sys2Proof.Machine

/-! ## The kinds (R176, R200, R201) -/

section

variable (n : Notice)

/-- R176: the kinds that each block takes from the inbound queue. -/
theorem owner_kinds :
    (n.owner = some .dispatcher ↔ n.kind = some .take ∨ n.kind = some .done) ∧
    (n.owner = some .frameDoff ↔ n.kind = some .doffQueued ∨ n.kind = some .doffGrant ∨ n.kind = some .doffStart ∨
      n.kind = some .doffEnd ∨ n.kind = some .doffAbort) ∧
    (n.owner = some .roving ↔ n.kind = some .rovingAck ∨ n.kind = some .rovingDefer ∨ n.kind = some .rovingLaid) ∧
    (n.owner = some .tally ↔ n.kind = some .shiftChange ∨ n.kind = some .tallyQuery) ∧
    (n.owner = some .spindleTable ↔ n.kind = some .unlock) := by
  unfold Notice.owner
  cases n.kind with
  | none => simp
  | some k => cases k <;> simp [Kind.owner]

/-- R200, R201: the kinds that the part acts on, each with its least payload. -/
theorem leastPayload_iff (k : Kind) (least : Nat) : k.leastPayload = some least ↔
    (k, least) ∈ [(Kind.hello, 3), (.patrol, 0), (.forecast, 7), (.hold, 1), (.take, 2), (.done, 4), (.doffQueued, 1),
      (.doffGrant, 1), (.doffStart, 0), (.doffEnd, 0), (.doffAbort, 0), (.rovingAck, 1), (.rovingDefer, 1),
      (.rovingLaid, 3), (.shiftChange, 6), (.unlock, 2), (.tallyQuery, 0)] := by
  cases k <;> simp [Kind.leastPayload, eq_comm]

theorem longEnough_iff : n.longEnough = true ↔ ∃ k least, n.kind = some k ∧ k.leastPayload = some least ∧
    least ≤ n.payload.length := by
  unfold Notice.longEnough
  cases n.kind with
  | none => simp
  | some k => cases least : k.leastPayload <;> simp [least]

theorem urgent_false_iff : n.urgent = false ↔ n.kind = none ∨
    ∃ k ∈ [Kind.patrol, .forecast, .call, .cancel, .tallyQuery, .tally, .tallyNone], n.kind = some k := by
  unfold Notice.urgent
  cases n.kind with
  | none => simp
  | some k => cases k <;> simp [Kind.urgent]

end

/-! ## What is dropped (R176, R188, R200) -/

section

variable {s : State} {n : Notice}

theorem accept_short (short : n.longEnough = false) : s.accept n = s := by simp [State.accept, short]

/-- R176: kinds outside the table, and kinds that no block and not the line unit acts on. -/
theorem accept_unlisted (unlisted : n.kind = none ∨ ∃ k ∈ [Kind.patrol, .forecast, .call, .cancel, .assign, .close,
    .doffClaim, .doffRefuse, .rovingAsk, .tally, .tallyNone], n.kind = some k) : s.accept n = s := by
  rcases unlisted with is | ⟨k, member, is⟩
  · exact accept_learned (by simp [Notice.owner, is]) (by simp [is]) (by simp [is])
  · have passed : ∀ k ∈ [Kind.patrol, .forecast, .call, .cancel, .assign, .close, .doffClaim, .doffRefuse, .rovingAsk,
        .tally, .tallyNone], k.owner = none ∧ k ≠ .hold ∧ k ≠ .hello := by decide
    obtain ⟨unowned, noHold, noHello⟩ := passed k member
    exact accept_learned (by simp [Notice.owner, is, unowned]) (by simp [is, noHold]) (by simp [is, noHello])

/-- R188: before the part is active, kinds that a block takes and the HELLO of a fresh start are dropped. -/
theorem accept_inactive (inactive : s.start.phase ≠ .active)
    (acted : n.kind = some .hello ∨ ∃ block, n.owner = some block) : s.accept n = s := by
  have off : s.active = false := Bool.eq_false_iff.mpr (mt active_iff.mp inactive)
  rcases acted with is | ⟨block, owner⟩
  · have unqueued : n.owner = none := by rw [Notice.owner, is]; rfl
    simp [State.accept, unqueued, is, State.freshHello, off]
  · simp [State.accept, owner, State.queueInbound, off]

end

/-! ## The rows that are the taking of a notice (R176, R178, log 11) -/

/-- The row of a notice of a kind that a block takes, at a moment. -/
def Kind.row (n : Notice) (t : Nat) : Kind → Option Instr
  | .take => some (.take t n.src n.reference (wordAt n.payload 0))
  | .done => some (.done t n.src n.reference (wordAt n.payload 0) (byteAt n.payload 2) (byteAt n.payload 3))
  | .doffQueued => some (.doffQueued t n.src (byteAt n.payload 0))
  | .doffGrant => some (.doffGrant t n.src (byteAt n.payload 0))
  | .doffStart => some (.doffStart t n.src)
  | .doffEnd => some (.doffEnd t n.src)
  | .doffAbort => some (.doffAbort t n.src)
  | .rovingAck => some (.rovingAck t n.src (byteAt n.payload 0) ((n.payload.drop 1).map (fun x => x.toNat)))
  | .rovingDefer => some (.rovingDefer t n.src (byteAt n.payload 0) ((n.payload.drop 1).map (fun x => x.toNat)))
  | .rovingLaid => some (.rovingLaid t n.src (byteAt n.payload 0) (wordAt n.payload 1))
  | .shiftChange => some (.shiftChange t n.src n.reference (wordAt n.payload 0) (longAt n.payload 2))
  | .unlock => some (.unlock t (wordAt n.payload 0))
  | .tallyQuery => some (.tallyQuery t n.src n.reference)
  | _ => none

section

variable {s : State} {t : Nat} {c : Instr} {block : Block} (active : s.start.phase = .active)
include active

/-- The row of a notice does what its block makes of the notice. -/
theorem exec_row {n : Notice} {k : Kind} (is : n.kind = some k) (row : k.row n t = some c)
    (owner : k.owner = some block) (free : s.canHand t block) : exec c s = .next ((s.handed t block).takeNotice n) := by
  cases k <;> cases row <;> cases owner <;> simp only [State.takeNotice, is] <;>
    exact congrArg Host.Outcome.next (whileHanded_handed _ active free)

/-- While its block works, or a notice waits, such a row moves part time alone. -/
theorem exec_row_waits (taken : takenBy c = some (t, block)) (waits : ¬s.canHand t block) :
    exec c s = .next (s.later t) := by
  cases c <;> cases taken <;> exact congrArg Host.Outcome.next (whileHanded_waits _ active waits)

end

/-! ## The places of the queue (R177, R179, R180) -/

section

variable {s : State} {n : Notice}

/-- The state with a notice placed at the tail of the inbound queue (R177). -/
def State.placed (s : State) (n : Notice) : State := { s with line := { s.line with inbound := s.line.inbound ++ [n] } }

theorem freeSlots_eq (s : State) : s.freeSlots = 16 - s.line.inbound.length := rfl

/-- A notice with a free slot, a routine one with more than two, is placed at the tail; then the own HOLD is tested. -/
theorem placeInbound_placed (room : s.line.inbound.length < 14 ∨ (n.urgent = true ∧ s.line.inbound.length < 16)) :
    s.placeInbound n = (s.placed n).testHold := by
  refine (placeInbound_effect s n).2.2 ?_ ?_
  · rw [freeSlots_eq]
    omega
  · rw [freeSlots_eq]
    rcases room with few | ⟨urgent, -⟩
    · exact .inr (by omega)
    · exact .inl urgent

theorem placed_freeSlots : (s.placed n).freeSlots = 15 - s.line.inbound.length := by
  rw [freeSlots_eq, State.placed, List.length_append, List.length_singleton]
  omega

end

/-! ## The head notices (R178) -/

section

variable {s : State} {n : Notice} {rest : List Notice} {block : Block}

theorem blockFree_false_iff : s.blockFree block = false ↔
    ∃ since, s.line.busy.of block = some since ∧ mayBeBusy block since s.clock := by
  rw [← Bool.not_eq_true, blockFree_iff]
  simp

theorem handHeads_empty (empty : s.line.inbound = []) (fuel : Nat) : s.handHeads fuel = s := by
  cases fuel <;> simp [State.handHeads, empty]

theorem handHeads_unowned (head : s.line.inbound = n :: rest) (unowned : n.owner = none) (fuel : Nat) :
    s.handHeads fuel = s := by
  cases fuel <;> simp [State.handHeads, head, unowned]

theorem handHeads_waits (head : s.line.inbound = n :: rest) (owner : n.owner = some block)
    (busy : s.blockFree block = false) (fuel : Nat) : s.handHeads fuel = s := by
  cases fuel <;> simp [State.handHeads, head, owner, busy]

theorem handHeads_hands (head : s.line.inbound = n :: rest) (owner : n.owner = some block)
    (free : s.blockFree block = true) (fuel : Nat) :
    s.handHeads (fuel + 1) = (s.handHead n rest block).handHeads fuel := by
  simp [State.handHeads, head, owner, free]

/-- What is handed is a front part of the queue, and a head that stays waits for a busy block. -/
theorem handHeads_stops : ∀ (fuel : Nat) (s : State), s.line.inbound.length < fuel →
    (∃ handed, s.line.inbound = handed ++ (s.handHeads fuel).line.inbound) ∧
      ∀ (n : Notice) (rest : List Notice) (block : Block), (s.handHeads fuel).line.inbound = n :: rest →
        n.owner = some block → (s.handHeads fuel).blockFree block = false := by
  intro fuel
  induction fuel with
  | zero => exact fun s short => absurd short (Nat.not_lt_zero _)
  | succ fuel ih =>
    intro s short
    cases queue : s.line.inbound with
    | nil =>
      rw [handHeads_empty queue, queue]
      exact ⟨⟨[], rfl⟩, nofun⟩
    | cons n rest =>
      cases owner : n.owner with
      | none =>
        rw [handHeads_unowned queue owner, queue]
        refine ⟨⟨[], rfl⟩, fun n' rest' block same owner' => ?_⟩
        cases same
        cases owner.symm.trans owner'
      | some block =>
        cases free : s.blockFree block with
        | false =>
          rw [handHeads_waits queue owner free, queue]
          refine ⟨⟨[], rfl⟩, fun n' rest' block' same owner' => ?_⟩
          cases same
          cases owner.symm.trans owner'
          exact free
        | true =>
          rw [handHeads_hands queue owner free]
          have next : (s.handHead n rest block).line.inbound.length < fuel := by
            rw [handHead_inbound]
            simpa [queue] using short
          obtain ⟨⟨handed, front⟩, stops⟩ := ih _ next
          rw [handHead_inbound] at front
          exact ⟨⟨n :: handed, congrArg (n :: ·) front⟩, stops⟩

/-- The state with another inbound queue and other busy blocks. -/
def State.relined (s : State) (inbound : List Notice) (busy : BusyBlocks) : State :=
  { s with line := { s.line with inbound := inbound, busy := busy } }

theorem relined_of_inbound {inbound : List Notice} (same : s.line.inbound = inbound) (busy : BusyBlocks) :
    s.relined inbound busy = { s with line := { s.line with busy := busy } } := by
  rw [← same]
  rfl

/-- R178, log 10: a head is handed: its slot is freed, the own HOLD is tested, and its block takes it. -/
theorem handHead_eq : s.handHead n rest block =
    ((s.relined rest (s.line.busy.set block (some s.clock))).testHold).takeNotice n := rfl

/-- A lone head whose block is free is handed, and nothing follows; without an own HOLD none is handed. -/
theorem handHeads_lone (lone : s.line.inbound = [n]) (owner : n.owner = some block) (free : s.blockFree block = true)
    (noHold : s.line.ownHold = none) (threshold : s.cfg.holdThreshold < 16) (fuel : Nat) : s.handHeads (fuel + 1) =
      (s.relined [] (s.line.busy.set block (some s.clock))).takeNotice n := by
  have untested : (s.relined [] (s.line.busy.set block (some s.clock))).testHold = _ :=
    (testHold_effect _).2.1 noHold threshold
  rw [handHeads_hands lone owner free, handHeads_empty (handHead_inbound ..), handHead_eq, untested]

end

/-! ## A notice that finds no other waiting (R178 to R180) -/

/-- Handing leaves the inbound queue and the busy blocks, and does not depend on them. -/
theorem hand_relined (s : State) (n : Notice) (inbound : List Notice) (busy : BusyBlocks) :
    (s.hand n).relined inbound busy = (s.relined inbound busy).hand n := by
  unfold State.hand
  cases n.urgent
  · dsimp only [State.relined]
    cases joinQueue n s.line.routine <;> rfl
  · dsimp only [State.relined]
    cases joinQueue n s.line.urgent <;> rfl

/-- The state as the own HOLD is ended: HOLD(0) is handed (R180). -/
def State.released (s : State) : State :=
  (s.withLine { s.line with ownHold := none }).hand (s.holdNotice 0)

theorem released_relined (s : State) (inbound : List Notice) (busy : BusyBlocks) :
    s.released.relined inbound busy = (s.relined inbound busy).released := hand_relined ..

@[simp] theorem released_fields (s : State) : s.released.line.inbound = s.line.inbound ∧
    s.released.line.busy = s.line.busy ∧ s.released.line.ownHold = none ∧ s.released.clock = s.clock ∧
    s.released.cfg = s.cfg := by
  simp [State.released, State.cfg]

section

variable {s : State} {n : Notice} {block : Block} (active : s.start.phase = .active) (owner : n.owner = some block)
  (long : n.longEnough = true)
include active owner long

theorem accept_placed (room : s.line.inbound.length < 14 ∨ (n.urgent = true ∧ s.line.inbound.length < 16)) :
    s.accept n = ((s.placed n).testHold).handHeads 17 := by
  rw [accept_queued active owner long, placeInbound_placed room]

variable (empty : s.line.inbound = []) (free : s.blockFree block = true) (threshold : s.cfg.holdThreshold < 15)
include empty free threshold

/-- A notice whose block is free, with none waiting, is handed at once. -/
theorem accept_alone (noHold : s.line.ownHold = none) : s.accept n =
    ({ s with line := { s.line with busy := s.line.busy.set block (some s.clock) } } : State).takeNotice n := by
  have slots : (s.placed n).cfg.holdThreshold < (s.placed n).freeSlots := by
    rw [placed_freeSlots, empty]
    exact threshold
  have lone : (s.placed n).line.inbound = [n] := by rw [State.placed, empty]; rfl
  rw [accept_placed active owner long (.inl (by simp [empty])), (testHold_effect (s.placed n)).2.1 noHold slots,
    handHeads_lone lone owner free noHold (Nat.lt_succ_of_lt threshold), ← relined_of_inbound empty]
  rfl

/-- R180: with the own HOLD in effect, the slots that stay free end it first. -/
theorem accept_alone_released (holds : s.line.ownHold ≠ none) : s.accept n =
    ({ s.released with line := { s.released.line with
      busy := s.line.busy.set block (some s.clock) } } : State).takeNotice n := by
  have slots : (s.placed n).cfg.holdThreshold < (s.placed n).freeSlots := by
    rw [placed_freeSlots, empty]
    exact threshold
  have tested : (s.placed n).testHold = (s.placed n).released := (testHold_effect (s.placed n)).2.2.2 holds slots
  obtain ⟨inbound, busy, noHold, clock, cfg⟩ := released_fields (s.placed n)
  have lone : (s.placed n).released.line.inbound = [n] := inbound.trans (by rw [State.placed, empty]; rfl)
  have idle : (s.placed n).released.blockFree block = true := by
    rw [State.blockFree, busy, clock]
    exact free
  have unqueued : s.released.line.inbound = [] := (released_fields s).1.trans empty
  rw [accept_placed active owner long (.inl (by simp [empty])), tested,
    handHeads_lone lone owner idle noHold (cfg.symm ▸ Nat.lt_succ_of_lt threshold), busy, clock,
    ← relined_of_inbound unqueued, released_relined, released_relined]
  rfl

end

/-! ## The end of a block's busy time (R178) -/

/-- The state at a moment at which a block has finished with the notice it was handed. -/
def State.blockEnded (s : State) (t : Nat) (block : Block) : State :=
  { s.later t with line := { s.line with busy := s.line.busy.set block none } }

section

variable {s : State} {t : Nat} {block : Block} (active : s.start.phase = .active)
include active

theorem exec_blockBusyEnds {since : Nat} (busy : s.line.busy.of block = some since) (later : since < max s.clock t) :
    exec (.blockBusyEnds t block) s = .next ((s.blockEnded t block).handHeads 17) := by
  refine congrArg Host.Outcome.next ?_
  rw [whileActive_later t _ active]
  simp only [later_line, later_clock, busy, later, if_true]
  rfl

/-- A block that is not busy, or only from this moment on, has nothing to end. -/
theorem exec_blockBusyEnds_stays (stays : s.line.busy.of block = none ∨
    ∃ since, s.line.busy.of block = some since ∧ max s.clock t ≤ since) :
    exec (.blockBusyEnds t block) s = .next (s.later t) := by
  refine congrArg Host.Outcome.next ?_
  rw [whileActive_later t _ active]
  rcases stays with free | ⟨since, busy, now⟩
  · simp only [later_line, free]
  · simp only [later_line, later_clock, busy, Nat.not_lt.mpr now, if_false]

end

/-- Settles O52: each part by the lemmas of its own heading above. -/
theorem inboundNoticesAreHandedInOrder : Obligations.InboundNoticesAreHandedInOrder := by
  refine ⟨?kinds, ?dropped, ?rows, ?placed, ?alone, ?ends, fun t block s active => exec_blockBusyEnds_stays active,
    ?heads, ?hold, ?order, fun c t block s taken active waits => exec_row_waits active taken waits⟩
  case kinds =>
    intro n
    obtain ⟨dispatcher, frameDoff, roving, tally, spindleTable⟩ := owner_kinds n
    refine ⟨dispatcher, frameDoff, roving, tally, spindleTable, ?_, urgent_false_iff n⟩
    simp only [longEnough_iff, leastPayload_iff, Prod.exists]
    exact exists₂_congr fun _ _ => and_left_comm
  case dropped =>
    refine fun s n => ⟨accept_unlisted, accept_short, fun is plain => ?_, accept_inactive,
      fun is long => accept_hold is long⟩
    exact accept_learned (by rw [Notice.owner, is]; rfl) (by simp [is]) fun _ => plain
  case rows =>
    rintro t s n _ active rfl
    refine ⟨fun free taken is => is ▸ ⟨fun k => ?_, fun k => ?_⟩,
      fun free taken is => is ▸ ⟨fun k => ?_, fun k => ?_, fun k => ?_, fun k => ?_, fun k => ?_⟩,
      fun free taken is => is ▸ ⟨fun k => ?_, fun k => ?_, fun k => ?_⟩,
      fun free taken is => is ▸ ⟨fun k => ?_, fun k => ?_⟩, fun free k => ?_⟩
    all_goals exact exec_row active k rfl rfl free
  case placed =>
    intro s n block active owner long
    refine ⟨fun full => ?_, fun routine few => ?_, fun room placed hold isPlaced isHold => ?_⟩
    · rw [accept_queued active owner long, (placeInbound_effect s n).1 (by rw [freeSlots_eq]; omega)]
      rfl
    · rw [accept_queued active owner long,
        (placeInbound_effect s n).2.1 (by rw [freeSlots_eq]; omega) routine (by rw [freeSlots_eq]; omega)]
      rfl
    · subst isPlaced isHold
      rw [accept_placed active owner long room, ← placed_freeSlots (n := n)]
      obtain ⟨holds, free, held, ends⟩ := testHold_effect (s.placed n)
      exact ⟨fun noHold few => congrArg _ (holds noHold few), fun noHold many => congrArg _ (free noHold many),
        fun stands few => congrArg _ (held stands few), fun stands many => congrArg _ (ends stands many)⟩
  case alone =>
    intro s n block active owner long empty idle threshold tested same released
    have free := (blockFree_iff s block).mpr idle
    by_cases noHold : s.line.ownHold = none
    · rw [same noHold]
      exact accept_alone active owner long empty free threshold noHold
    · rw [released noHold]
      exact accept_alone_released active owner long empty free threshold noHold
  case ends =>
    rintro t since block s _ active busy later rfl
    rw [exec_blockBusyEnds active busy later]
    have free : (s.blockEnded t block).blockFree block = true := by simp [State.blockFree, State.blockEnded]
    refine ⟨rfl, fun empty => congrArg _ ?empty,
      fun head rest other u queue owner differs works may => congrArg _ ?waits,
      fun head lone owner noHold threshold => congrArg _ ?lone⟩
    case empty => exact handHeads_empty (s := s.blockEnded t block) empty 17
    case waits =>
      have still : (s.blockEnded t block).line.busy.of other = some u :=
        (busyOf_set ..).trans ((if_neg differs).trans works)
      exact handHeads_waits (s := s.blockEnded t block) queue owner (blockFree_false_iff.mpr ⟨u, still, may⟩) 17
    case lone => exact handHeads_lone (s := s.blockEnded t block) lone owner free noHold threshold 16
  case heads =>
    refine fun s => ⟨rfl, fun fuel => ⟨fun empty => handHeads_empty empty _, fun n rest block queue owner =>
      ⟨fun since busy may => ?_, fun idle => ?_⟩⟩⟩
    · exact handHeads_waits queue owner (blockFree_false_iff.mpr ⟨since, busy, may⟩) _
    · exact handHeads_hands queue owner ((blockFree_iff s block).mpr idle) fuel
  case hold =>
    rintro s _ n rest block rfl _ rfl
    obtain ⟨holds, free, held, ends⟩ := testHold_effect (s.relined rest (s.line.busy.set block (some s.clock)))
    rw [handHead_eq]
    exact ⟨fun noHold few => congrArg (State.takeNotice · n) (holds noHold few),
      fun noHold many => congrArg (State.takeNotice · n) (free noHold many),
      fun stands few => congrArg (State.takeNotice · n) (held stands few),
      fun stands many => congrArg (State.takeNotice · n) (ends stands many)⟩
  case order =>
    intro s bounded
    obtain ⟨front, stops⟩ := handHeads_stops 17 s (Nat.lt_succ_of_le bounded)
    exact ⟨front, fun n rest block head owner => blockFree_false_iff.mp (stops n rest block head owner)⟩

end Sys2Proof.Machine
end

section
/-! The configuration image: every field within its range, and what makes a configuration good (R190 to R193, R203). -/

namespace Sys2Proof.Machine

/-! ## The clamp of a tuning field (R192) -/

section

variable {allOnes low high v : Nat}

theorem clamp_noDefault (ordered : low ≤ high) :
    clamp allOnes low high none v = if v < low then low else if high < v then high else v := by
  have brought : clamp allOnes low high none v = min high (max low v) := rfl
  rw [brought]
  split
  · omega
  · split <;> omega

theorem clamp_default (d : Nat) :
    clamp allOnes low high (some d) v = if v = allOnes then d else clamp allOnes low high none v := rfl

/-- R192: any value is brought within the range. -/
theorem clamp_noDefault_inRange (ordered : low ≤ high) :
    low ≤ clamp allOnes low high none v ∧ clamp allOnes low high none v ≤ high := by
  rw [clamp_noDefault ordered]
  split
  · omega
  · split <;> omega

/-- R192: so is the all-ones value, whose default stands within the range. -/
theorem clamp_default_inRange {d : Nat} (inside : low ≤ d ∧ d ≤ high) :
    low ≤ clamp allOnes low high (some d) v ∧ clamp allOnes low high (some d) v ≤ high := by
  rw [clamp_default]
  split
  · exact inside
  · exact clamp_noDefault_inRange (Nat.le_trans inside.1 inside.2)

end

section

variable {image : List Byte} {address low high default : Nat}

theorem tuneByte_inRange (inside : low ≤ default ∧ default ≤ high := by decide) :
    low ≤ tuneByte image address low high default ∧ tuneByte image address low high default ≤ high :=
  clamp_default_inRange inside

theorem tuneWord_inRange (inside : low ≤ default ∧ default ≤ high := by decide) :
    low ≤ tuneWord image address low high default ∧ tuneWord image address low high default ≤ high :=
  clamp_default_inRange inside

theorem rangeWord_inRange (ordered : low ≤ high := by decide) :
    low ≤ rangeWord image address low high ∧ rangeWord image address low high ≤ high :=
  clamp_noDefault_inRange ordered

theorem profileOf_inRange {p : ProfilePoint} (member : p ∈ profileOf image) :
    p.fill ≤ 1000 ∧ 3000 ≤ p.speed ∧ p.speed ≤ 25000 := by
  obtain ⟨k, -, rfl⟩ := List.mem_map.mp member
  exact ⟨(rangeWord_inRange).2, rangeWord_inRange⟩

end

/-- Settles O10: the clamp by its two cases, the fields by the layout, and the ranges by the clamp. -/
theorem tuningFieldsAreClamped : Obligations.TuningFieldsAreClamped := by
  refine ⟨fun _ _ _ d v ordered => ?default, fun _ _ _ _ ordered => clamp_noDefault ordered, ?layout, ?ranges⟩
  case default => rw [clamp_default, clamp_noDefault ordered]
  case layout =>
    rintro image c rfl byte word rfl rfl
    exact ⟨⟨rfl, rfl, rfl, rfl, rfl, rfl, rfl⟩, ⟨rfl, rfl, rfl, rfl, rfl, rfl, rfl, rfl, rfl⟩,
      ⟨rfl, rfl, rfl, rfl, rfl, rfl⟩, ⟨rfl, rfl, rfl, rfl, rfl, rfl, rfl⟩, ⟨rfl, rfl, rfl, rfl, rfl, rfl, rfl⟩,
      rfl, rfl, rfl, rfl, rfl, rfl, rfl⟩
  case ranges =>
    rintro image c rfl
    exact ⟨tuneByte_inRange, tuneByte_inRange, tuneByte_inRange, tuneByte_inRange,
      clamp_noDefault_inRange (allOnes := 255) (by decide), rangeWord_inRange, rangeWord_inRange, rangeWord_inRange,
      rangeWord_inRange, fun _ => profileOf_inRange, rangeWord_inRange, rangeWord_inRange, rangeWord_inRange,
      tuneWord_inRange, (tuneByte_inRange).2, tuneByte_inRange, (tuneByte_inRange).2, tuneByte_inRange,
      tuneByte_inRange, tuneByte_inRange, tuneWord_inRange, tuneByte_inRange, tuneWord_inRange, tuneWord_inRange,
      tuneByte_inRange, tuneByte_inRange, tuneByte_inRange, tuneWord_inRange, (tuneByte_inRange).2, tuneByte_inRange,
      (tuneByte_inRange).2, (tuneWord_inRange).2, tuneByte_inRange, tuneWord_inRange, tuneByte_inRange,
      tuneByte_inRange⟩

/-! ## A good configuration (R190, R191, R193) -/

theorem strapGood_iff (strap : Nat) : strapGood strap = true ↔ 1 ≤ strap ∧ strap ≤ 239 := by
  simp [strapGood]

/-- R193: with a usable strap value, a station is good that is one of 1..239 and not the part's own. -/
theorem stationGood_iff {strap : Nat} (usable : strapGood strap = true) (station : Nat) :
    stationGood strap station = true ↔ 1 ≤ station ∧ station ≤ 239 ∧ station ≠ strap := by
  simp [stationGood, usable, and_assoc]

theorem imageGood_iff (image : List Byte) : imageGood image = true ↔
    byteAt image 0 = 1 ∧ (image.map (fun b => b.toNat)).sum % 256 = 0 := by
  simp [imageGood]

/-- Fills that each stand above the one before stand above every one before. -/
theorem risingFills_iff (points : List ProfilePoint) : risingFills points = true ↔
    (points.map (fun p => p.fill)).Pairwise (fun f g => f < g) := by
  induction points with
  | nil => simp [risingFills]
  | cons p points ih =>
    cases points with
    | nil => simp [risingFills]
    | cons q rest =>
      rw [risingFills, Bool.and_eq_true, ih, decide_eq_true_iff, List.map_cons, List.map_cons,
        List.pairwise_cons (a := p.fill)]
      refine and_congr_left fun rising => ⟨fun next f member => ?_, fun below => below _ List.mem_cons_self⟩
      rcases List.mem_cons.mp member with rfl | later
      · exact next
      · exact Nat.lt_trans next ((List.pairwise_cons.mp rising).1 f later)

theorem profileGood_iff (points : List ProfilePoint) : profileGood points = true ↔
    (points.map (fun p => p.fill)).head? = some 0 ∧
      (points.map (fun p => p.fill)).Pairwise (fun f g => f < g) := by
  cases points with
  | nil => simp [profileGood]
  | cons p rest =>
    rw [profileGood, Bool.and_eq_true, risingFills_iff, beq_iff_eq, List.map_cons, List.head?_cons, Option.some_inj]

/-- R193: the structural checks one by one, with a usable strap value. -/
theorem structureGood_iff {strap : Nat} (usable : strapGood strap = true) (image : List Byte) :
    structureGood strap image = true ↔
      (1 ≤ byteAt image 1 ∧ byteAt image 1 ≤ 24) ∧ byteAt image 2 ≤ 24 ∧ byteAt image 3 ≤ 3 ∧ byteAt image 4 ≤ 2 ∧
        1 ≤ byteAt image 5 ∧
        (∀ k, k = 6 ∨ k = 7 → 1 ≤ byteAt image k ∧ byteAt image k ≤ 239 ∧ byteAt image k ≠ strap) ∧
        (2 ≤ byteAt image 21 ∧ byteAt image 21 ≤ 8) ∧
        (((settingsOf image).profile.map (fun p => p.fill)).head? = some 0 ∧
          ((settingsOf image).profile.map (fun p => p.fill)).Pairwise (fun f g => f < g)) ∧
        (settingsOf image).sMin ≤ (settingsOf image).sMax ∧ (settingsOf image).sMax ≤ (settingsOf image).sFull := by
  have stations : (∀ k, k = 6 ∨ k = 7 → 1 ≤ byteAt image k ∧ byteAt image k ≤ 239 ∧ byteAt image k ≠ strap) ↔
      stationGood strap (byteAt image 6) = true ∧ stationGood strap (byteAt image 7) = true := by
    simp only [stationGood_iff usable]
    exact ⟨fun both => ⟨both 6 (.inl rfl), both 7 (.inr rfl)⟩, by rintro ⟨six, seven⟩ k (rfl | rfl) <;> assumption⟩
  rw [stations, ← profileGood_iff]
  simp only [structureGood, Bool.and_eq_true, decide_eq_true_eq]
  simp only [settingsOf, profileCount, and_assoc]
  exact ⟨fun ⟨lowA, highA, sideB, chain, rate, lowCount, highCount, profile, minMax, maxFull, group, doffer, rail⟩ =>
      ⟨lowA, highA, sideB, chain, rate, group, doffer, rail, lowCount, highCount, profile, minMax, maxFull⟩,
    fun ⟨lowA, highA, sideB, chain, rate, group, doffer, rail, lowCount, highCount, profile, minMax, maxFull⟩ =>
      ⟨lowA, highA, sideB, chain, rate, lowCount, highCount, profile, minMax, maxFull, group, doffer, rail⟩⟩

/-! ## The end of a faulty read (R194) -/

/-- R191, R193: a read that is over goes on to a start or to configuration fault. -/
theorem exec_configurationReadEnd_ended {s : State} {t : Nat} {presented : List Byte}
    (reading : s.start.phase = .reading) (ended : s.start.phaseStart + 10560 ≤ max s.clock t) :
    exec (.configurationReadEnd t presented) s = .next ((s.later t).endRead presented) := by
  have acts : exec (.configurationReadEnd t presented) s = execConfigurationReadEnd t presented s := rfl
  have moment : s.reach t = s.later t := reach_later t (by simp [reading]) (by simp [reading])
  rw [acts, execConfigurationReadEnd, moment]
  exact congrArg Host.Outcome.next (if_pos ((Bool.and_eq_true _ _).mpr
    ⟨beq_iff_eq.mpr reading, decide_eq_true ended⟩))

/-- R194: with a faulty configuration it ends in configuration fault. -/
theorem endRead_faulty {s : State} {presented : List Byte}
    (faulty : configurationGood s.start.strap (imageOf presented) = false) :
    s.endRead presented = s.enterFault (imageOf presented) :=
  if_neg (Bool.eq_false_iff.mp faulty)

/-- Settles O9: the checks one by one, and `enterFault`, which writes the start's phase and image. -/
theorem faultyConfigurationStopsTheStart : Obligations.FaultyConfigurationStopsTheStart := by
  refine ⟨?good, fun t presented s reading ended faulty => ?faulty⟩
  case good =>
    rintro strap image - c rfl
    rw [configurationGood, Bool.and_eq_true, Bool.and_eq_true, and_assoc]
    refine ((and_congr_right fun usable => and_congr (imageGood_iff image) (structureGood_iff usable image)).trans
      (and_congr_left' (strapGood_iff strap))).trans ?_
    simp only [and_assoc]
    rfl
  case faulty =>
    rw [exec_configurationReadEnd_ended reading ended, endRead_faulty (s := s.later t) faulty]
    rfl

end Sys2Proof.Machine
end

section
/-! The reset pin, and what the end of a good configuration read makes of every block (R61, R62, R80, R88, R115, R116,
R187, R195, R196, R198). -/

namespace Sys2Proof.Machine

/-! ## RESET_ASSERT and RESET_RELEASE (R196, R198, R204) -/

/-- R196: with part time running, the assertion of the reset pin takes what retained memory does not hold. -/
theorem exec_resetAssert_runs {s : State} (t : Nat) (off : s.start.phase ≠ .off) (inReset : s.start.phase ≠ .inReset) :
    exec (.resetAssert t) s = .next ((s.later t).withPins (s.pins.atReset true)).loseVolatile := by
  have acts : exec (.resetAssert t) s = execResetAssert t s := rfl
  have runs : ((s.later t).withPins (s.pins.atReset true)).clockRuns = true := by
    simp [State.clockRuns, off, inReset]
  rw [acts, execResetAssert, reach_later t off inReset]
  exact congrArg Host.Outcome.next (if_pos runs)

/-- R204: without supply, or in reset already, only the level of the pin moves. -/
theorem exec_resetAssert_stopped {s : State} (t : Nat) (stopped : s.start.phase = .off ∨ s.start.phase = .inReset) :
    exec (.resetAssert t) s = .next (s.withPins (s.pins.atReset true)) := by
  have acts : exec (.resetAssert t) s = execResetAssert t s := rfl
  have still : s.clockRuns = false := by
    rcases stopped with phase | phase <;> simp [State.clockRuns, phase]
  rw [acts, execResetAssert, reach_of_stopped t still, withPins_clockRuns, still]
  rfl

/-- R190, R196: the release of the pin begins the read of a part in reset. -/
theorem exec_resetRelease_inReset {s : State} (strap : Nat) (inReset : s.start.phase = .inReset) :
    exec (.resetRelease strap) s = .next ((s.withPins (s.pins.atReset false)).beginRead strap) :=
  congrArg Host.Outcome.next (if_pos (beq_iff_eq.mpr inReset))

theorem exec_resetRelease_out {s : State} (strap : Nat) (out : s.start.phase ≠ .inReset) :
    exec (.resetRelease strap) s = .next (s.withPins (s.pins.atReset false)) :=
  congrArg Host.Outcome.next (if_neg (mt beq_iff_eq.mp out))

/-- Settles O4: `loseVolatile` and `beginRead`, which write the fields listed, and the level of the pin. -/
theorem resetKeepsRetainedMemory : Obligations.ResetKeepsRetainedMemory :=
  ⟨fun t _ off inReset => exec_resetAssert_runs t off inReset, fun t _ stopped => exec_resetAssert_stopped t stopped,
    fun strap _ inReset => exec_resetRelease_inReset strap inReset, fun strap _ out => exec_resetRelease_out strap out⟩

/-! ## The drive unit and the frame unit after a start (R61, R62, R116) -/

/-- R47: the fill that a start finds, from the retained D and cop mark. -/
theorem refill_fresh (u : DriveUnit) (c : Settings) (unlatched : u.fullLatch = false) : u.refill c =
    { u with fill := u.fillNow c, fullLatch := u.fillNow c == 1000 } := by
  simp [DriveUnit.refill, unlatched]

/-- R48, R49: with the rate unknown both forecasts are 0 for a full cop and unknown for any other. -/
theorem forecasts_noRate (u : DriveUnit) (c : Settings) (unknown : u.rate = none) : u.forecasts c =
    { u with measured := if u.fill = 1000 then 0 else 999, natural := if u.fill = 1000 then 0 else 999 } := by
  simp [DriveUnit.forecasts, DriveUnit.measuredNow, DriveUnit.naturalNow, unknown]

/-- R61, R62: the delivery and drive unit after a start. -/
theorem started_eq (u : DriveUnit) (c : Settings) : u.started c =
    { remainder := if c.pulses * 10000 ≤ u.remainder then 0 else u.remainder
      d := u.d, copMark := u.copMark, tickMark := u.d, buckets := [], eligible := false, rate := none,
      turning := false, lastPulse := 0, fullLatch := u.fillNow c == 1000, fill := u.fillNow c,
      measured := if u.fillNow c = 1000 then 0 else 999, natural := if u.fillNow c = 1000 then 0 else 999,
      trimGiven := 0, speed := c.sMin, dutyWaiting := 0, dutyRunning := 0, pwmNext := u.pwmNext, tickDue := none } := by
  rw [DriveUnit.started, refill_fresh _ _ rfl, forecasts_noRate _ _ rfl]
  rfl

/-- Settles O6: `beginListening`, with the drive unit as `started_eq` says and the frame unit on its fill. -/
theorem goodConfigurationBeginsListening : Obligations.GoodConfigurationBeginsListening := by
  refine ⟨fun _ => rfl, ?_⟩
  rintro t presented s reading ended good c rfl fill rfl
  exact ⟨_, exec_configurationReadEnd_good reading ended good, rfl, started_eq s.drive _,
    congrArg (frameStarted · _) (congrArg DriveUnit.fill (started_eq s.drive _)), rfl, rfl, rfl, rfl, rfl, rfl, rfl,
    rfl⟩

end Sys2Proof.Machine
end

section
/-! Configuration fault: no command but a start moves a block (R21, R60, R89, R117, R140, R164, R189, R194). -/

namespace Sys2Proof.Machine

/-! ## What stands in configuration fault -/

/-- From `s` to `s'` only part time, the frame minutes begun and the levels of the pins have moved. -/
def State.Stands (s s' : State) : Prop :=
  ∃ clock minutes pins, s.clock ≤ clock ∧ s.minutesBegun ≤ minutes ∧
    s' = { s with clock := clock, minutesBegun := minutes, pins := pins }

theorem withPins_stands (s : State) (p : Pins) : s.Stands (s.withPins p) :=
  ⟨s.clock, s.minutesBegun, p, Nat.le_refl _, Nat.le_refl _, rfl⟩

/-! ## The gates of a command -/

section

variable {s : State} (fault : s.start.phase = .configFault) (t : Nat)
include fault

theorem reach_fault : s.reach t = s.later t := reach_later t (by simp [fault]) (by simp [fault])

theorem reach_stands : s.Stands (s.reach t) := by
  rw [reach_fault fault]
  exact ⟨max s.clock t, s.minutesBegun, s.pins, Nat.le_max_left .., Nat.le_refl _, rfl⟩

theorem whileActive_stands (f : State → State) : s.Stands (s.whileActive t f) := by
  rw [whileActive_of_inactive t f (by simp [fault])]
  exact reach_stands fault t

theorem whileListening_stands (f : State → State) : s.Stands (s.whileListening t f) := by
  rw [whileListening_of_deaf t f (by simp [State.listens, fault])]
  exact reach_stands fault t

theorem whileHanded_stands (block : Block) (f : State → State) : s.Stands (s.whileHanded t block f) :=
  whileActive_stands fault t _

/-- R204: a change of an input is taken and not acted on (log 27). -/
theorem onChange_stands (i : Input) (level : Bool) (act : State → State) : s.Stands (s.onChange t i level act) := by
  by_cases may : s.mayChange t i level
  · rw [onChange_unwatched act (by simp [State.clockRuns, fault]) (by simp [fault]) may]
    exact ⟨max s.clock t, s.minutesBegun, _, Nat.le_max_left .., Nat.le_refl _, rfl⟩
  · rw [onChange_stays act (by simp [State.clockRuns, fault]) may, ← reach_fault fault]
    exact reach_stands fault t

/-! ## The commands with conditions of their own -/

/-- R199: the frame minutes begin in configuration fault too, and no count is raised (R197). -/
theorem execFrameMinute_stands : ∃ s', execFrameMinute t s = .next s' ∧ s.Stands s' := by
  have deaf : ((s.later t).withMinutesBegun (s.minutesBegun + 1)).listens = false := by simp [State.listens, fault]
  refine ⟨_, rfl, ?_⟩
  rw [reach_fault fault]
  split
  · simp only [later_minutesBegun, deaf, Bool.false_eq_true, if_false]
    exact ⟨max s.clock t, s.minutesBegun + 1, s.pins, Nat.le_max_left .., Nat.le_succ _, rfl⟩
  · rw [← reach_fault fault]
    exact reach_stands fault t

/-- R58: the PWM periods do not run in configuration fault. -/
theorem execPwmPeriodStart_stands : ∃ s', execPwmPeriodStart t s = .next s' ∧ s.Stands s' := by
  refine ⟨_, rfl, ?_⟩
  rw [if_neg (by simp [State.pwmRuns, fault])]
  exact reach_stands fault t

theorem execConfigurationReadEnd_stands (presented : List Byte) :
    ∃ s', execConfigurationReadEnd t presented s = .next s' ∧ s.Stands s' := by
  refine ⟨_, rfl, ?_⟩
  rw [if_neg (by simp [fault])]
  exact reach_stands fault t

theorem execBecomingActive_stands : ∃ s', execBecomingActive t s = .next s' ∧ s.Stands s' := by
  refine ⟨_, rfl, ?_⟩
  rw [if_neg (by simp [fault])]
  exact reach_stands fault t

omit t in
/-- R196: the reset pin that is released out of reset begins nothing. -/
theorem execResetRelease_stands (strap : Nat) : ∃ s', execResetRelease strap s = .next s' ∧ s.Stands s' :=
  ⟨_, exec_resetRelease_out strap (by simp [fault]), withPins_stands s _⟩

/-! ## Every command -/

omit t in
theorem exec_stands {c : Instr} (noPowerOn : ∀ strap, c ≠ .powerOn strap) (noLoss : c ≠ .supplyLost)
    (noReset : ∀ t, c ≠ .resetAssert t) : ∃ s', exec c s = .next s' ∧ s.Stands s' := by
  cases c
  case powerOn strap => exact absurd rfl (noPowerOn strap)
  case supplyLost => exact absurd rfl noLoss
  case resetAssert t => exact absurd rfl (noReset t)
  case resetRelease strap => exact execResetRelease_stands fault strap
  case configurationReadEnd t presented => exact execConfigurationReadEnd_stands fault t presented
  case becomingActive t => exact execBecomingActive_stands fault t
  case frameMinute t => exact execFrameMinute_stands fault t
  case pwmPeriodStart t => exact execPwmPeriodStart_stands fault t
  case sideClearPress | runPermitRise | runPermitFall | stopButton | driveFault | atDoffPosition | doffDoneButton |
      driveFaultClears | atDoffPositionClears | buttonRelease =>
    exact ⟨_, rfl, onChange_stands fault ..⟩
  case frontRollerPulse | rollerStopsTurning | receiveFrameEnd | hold | hello | patrol | forecast | peerHoldExpiry |
      isolationTimeout | startMark =>
    exact ⟨_, rfl, whileListening_stands fault ..⟩
  case unlock | take | done | doffStart | doffEnd | doffAbort | doffQueued | doffGrant | rovingAck | rovingDefer |
      rovingLaid | shiftChange | tallyQuery =>
    exact ⟨_, rfl, whileHanded_stands fault ..⟩
  case scanTimerExpiry | moduleFrameReceived | sensePassEnd | drivePassEnd | updateTick | callRepeat |
      withdrawnUntaken | piecingTimeout | verifyWindowCloses | restartGrace | positionTimeout | doffingTimeout |
      forecastInterval | claimAnswerWait | claimPause | batchTimer | rovingAnswerWait | etaExpiry | deferralEnd |
      blockBusyEnds | ownHoldExpiry | firstAttempt | collision | jamEnd | retryAttempt | noticeSent =>
    exact ⟨_, rfl, whileActive_stands fault ..⟩

end

/-- Settles O5: every command acts behind a gate that configuration fault keeps shut. -/
theorem configurationFaultHoldsEveryBlock : Obligations.ConfigurationFaultHoldsEveryBlock := by
  intro c s fault noPowerOn noLoss noReset
  obtain ⟨_, done, clock, minutes, pins, later, more, rfl⟩ := exec_stands fault noPowerOn noLoss noReset
  exact ⟨clock, minutes, pins, later, more, done⟩

end Sys2Proof.Machine
end

section
/-! The end of the listening period: HELLO, the scan timers, the first FORECAST, and the asks of the roving unit (R5,
R43, R103, R122, R123, R139, R197). -/

namespace Sys2Proof.Machine

/-! ## What the asks leave of the outbound queues (R123, R167) -/

/-- A ROVING-ASK joins the urgent queue at its end, or finds it full. -/
theorem handAsk_urgent_cases (s : State) (part : List SupplyRec) :
    (s.handAsk part).line.urgent = s.line.urgent ++ [s.askFor part] ∨
      (s.handAsk part).line.urgent = s.line.urgent := by
  by_cases free : s.line.urgent.length < 12
  · exact .inl (handAsk_urgent part free)
  · have alone : ¬(((s.askFor part).kind = some .forecast ∨ (s.askFor part).kind = some .hello) ∧
        ∃ m ∈ s.line.urgent, m.kind = (s.askFor part).kind) := by simp [State.askFor]
    have dropped : s.handAsk part =
        (s.withRoving { s.roving with askSeq := askSeqAfter s.roving.askSeq }).sendFailure :=
      hand_dropped ((joinQueue_joining alone).trans (if_neg free))
    rw [dropped]
    exact .inr rfl

/-- From `s` to `s'` the outbound queues have taken ROVING-ASK notices for the rail, and no others. -/
structure State.OnlyAsks (s s' : State) : Prop where
  start : s'.start = s.start
  routine : s'.line.routine = s.line.routine
  urgent : ∃ asks, s'.line.urgent = s.line.urgent ++ asks ∧
    ∀ n ∈ asks, n.kind = some .rovingAsk ∧ n.dst = s.cfg.railStation

theorem onlyAsks_of_line {s s' : State} (start : s'.start = s.start) (line : s'.line = s.line) : s.OnlyAsks s' :=
  ⟨start, by rw [line], [], by rw [line, List.append_nil], nofun⟩

theorem State.OnlyAsks.trans {s u v : State} (first : s.OnlyAsks u) (second : u.OnlyAsks v) : s.OnlyAsks v := by
  obtain ⟨asks, queue, toRail⟩ := first.urgent
  obtain ⟨more, queue', toRail'⟩ := second.urgent
  refine ⟨second.start.trans first.start, second.routine.trans first.routine, asks ++ more, ?_, fun n member => ?_⟩
  · rw [queue', queue, List.append_assoc]
  · rcases List.mem_append.mp member with member | member
    · exact toRail n member
    · rw [State.cfg, ← first.start]
      exact toRail' n member

section

variable (s : State)

theorem handAsk_onlyAsks (part : List SupplyRec) : s.OnlyAsks (s.handAsk part) := by
  refine ⟨by simp, by simp, ?_⟩
  rcases handAsk_urgent_cases s part with queue | queue
  · exact ⟨[s.askFor part], queue, by simp [State.askFor]⟩
  · exact ⟨[], by rw [queue, List.append_nil], nofun⟩

theorem handAsks_onlyAsks (recs : List SupplyRec) : s.OnlyAsks (s.handAsks recs) :=
  foldl_holds s.OnlyAsks State.handAsk (fun u part before => before.trans (handAsk_onlyAsks u part)) _ s
    (onlyAsks_of_line rfl rfl)

theorem askRunOut_onlyAsks (creels : List Nat) : s.OnlyAsks (s.askRunOut creels) := by
  rw [askRunOut_eq]
  have asked : s.OnlyAsks { s with roving := { s.roving with recs := s.runOutAskedRecs creels } } :=
    onlyAsks_of_line rfl rfl
  exact asked.trans (handAsks_onlyAsks _ _)

theorem batchRunsOut_onlyAsks : s.OnlyAsks s.batchRunsOut := by
  by_cases due : ∃ r ∈ s.roving.recs, r.state = .due
  · rw [batchRunsOut_asks due _ rfl]
    have stopped : s.OnlyAsks s.batchStopped := onlyAsks_of_line rfl rfl
    exact (stopped.trans (handAsks_onlyAsks _ _)).trans (onlyAsks_of_line rfl rfl)
  · rw [batchRunsOut_idle fun r member state => due ⟨r, member, state⟩]
    exact onlyAsks_of_line rfl rfl

theorem startBatch_onlyAsks : s.OnlyAsks s.startBatch := by
  cases timer : s.roving.batchDue with
  | some m =>
    rw [startBatch_runs ⟨m, timer⟩]
    exact onlyAsks_of_line rfl rfl
  | none =>
    by_cases delay : s.cfg.batchDelay = 0
    · rw [startBatch_noDelay timer delay]
      exact batchRunsOut_onlyAsks s
    · rw [startBatch_delay timer delay]
      exact onlyAsks_of_line rfl rfl

end

/-- R122: with a batch delay above 0 the start of the batch timer hands nothing. -/
theorem startBatch_line {s : State} (delay : s.cfg.batchDelay ≠ 0) : s.startBatch.line = s.line := by
  cases timer : s.roving.batchDue with
  | some m => rw [startBatch_runs ⟨m, timer⟩]
  | none => rw [startBatch_delay timer delay]

/-! ## The sections that some asks list (R123, R124) -/

/-- Where the urgent queue has room for them all, there is an ask for every part. -/
theorem foldl_handAsk_urgent (parts : List (List SupplyRec)) : ∀ s : State,
    s.line.urgent.length + parts.length ≤ 12 → ∃ asks : List Notice,
      (parts.foldl State.handAsk s).line.urgent = s.line.urgent ++ asks ∧
        asks.map (fun n => (n.kind, n.payload)) =
          parts.map (fun part => (some Kind.rovingAsk, askPayload s.start.strap part)) := by
  induction parts with
  | nil => exact fun s _ => ⟨[], (List.append_nil _).symm, rfl⟩
  | cons part parts ih =>
    intro s room
    rw [List.length_cons] at room
    have first := handAsk_urgent (s := s) part (by omega)
    obtain ⟨asks, queue, payloads⟩ := ih (s.handAsk part)
      (by rw [first, List.length_append, List.length_singleton]; omega)
    refine ⟨s.askFor part :: asks, ?_, ?_⟩
    · rw [List.foldl_cons, queue, first, List.append_assoc, List.singleton_append]
    · rw [List.map_cons, payloads, (handAsk_onlyAsks s part).start]
      rfl

/-- R123, R124: every section asked for stands in one of the asks, where the urgent queue has room for them. -/
theorem handAsks_lists {s : State} {recs : List SupplyRec}
    (room : s.line.urgent.length + (recs.length + 11) / 12 ≤ 12) :
    ∃ asks, (s.handAsks recs).line.urgent = s.line.urgent ++ asks ∧
      ∀ r ∈ recs, 1 ≤ r.creel → r.creel ≤ 48 → ∃ n ∈ asks, n.kind = some .rovingAsk ∧ n.lists r.creel := by
  obtain ⟨asks, queue, payloads⟩ := foldl_handAsk_urgent (chunks 12 recs.length recs) s
    (by rw [length_chunks (by decide) _ _ (Nat.le_refl _)]; exact room)
  refine ⟨asks, queue, fun r member low high => ?_⟩
  rw [← chunks_flatten (size := 12) (by decide) recs.length recs (Nat.le_refl _)] at member
  obtain ⟨part, isPart, inPart⟩ := List.mem_flatten.mp member
  have asked : (some Kind.rovingAsk, askPayload s.start.strap part) ∈ asks.map (fun n => (n.kind, n.payload)) :=
    payloads ▸ List.mem_map_of_mem isPart
  obtain ⟨n, isAsk, same⟩ := List.mem_map.mp asked
  obtain ⟨kind, payload⟩ := Prod.mk.inj same
  exact ⟨n, isAsk, kind, (askPayload_lists n _ part payload _ low high).mpr ⟨r, inPart, rfl⟩⟩

theorem askRunOut_lists {s : State} {creels : List Nat} (room : s.line.urgent.length ≤ 8)
    (few : s.roving.recs.length ≤ 48) :
    ∃ asks, (s.askRunOut creels).line.urgent = s.line.urgent ++ asks ∧
      ∀ r ∈ s.roving.recs, r.creel ∈ creels → 1 ≤ r.creel → r.creel ≤ 48 →
        ∃ n ∈ asks, n.kind = some .rovingAsk ∧ n.lists r.creel := by
  have order := sortBy_perm creelBefore
    ((s.runOutAskedRecs creels).filter (fun r => decide (r.creel ∈ creels)))
  have short : (sortBy creelBefore
      ((s.runOutAskedRecs creels).filter (fun r => decide (r.creel ∈ creels)))).length ≤ 48 := by
    rw [order.length_eq]
    exact Nat.le_trans (List.length_filter_le ..) (by rwa [State.runOutAskedRecs, List.length_map])
  rw [askRunOut_eq]
  obtain ⟨asks, queue, listed⟩ := handAsks_lists
    (s := { s with roving := { s.roving with recs := s.runOutAskedRecs creels } })
    (recs := sortBy creelBefore ((s.runOutAskedRecs creels).filter (fun r => decide (r.creel ∈ creels))))
    (by dsimp only; omega)
  refine ⟨asks, queue, fun r member chosen low high => ?_⟩
  exact listed { r with asks := 1, retryAt := some (s.clock / 1000 + 30000), eta := none }
    (order.mem_iff.mpr (List.mem_filter.mpr
      ⟨List.mem_map.mpr ⟨r, member, if_pos chosen⟩, decide_eq_true chosen⟩)) low high

theorem askRunOut_nil (s : State) : (s.askRunOut []).line = s.line := by
  have none : (s.runOutAskedRecs []).filter (fun r => decide (r.creel ∈ ([] : List Nat))) = [] := by simp
  rw [askRunOut_eq, none]
  rfl

/-! ## The roving unit as scanning begins (R122, R139) -/

/-- The sections kept in RUN-OUT. -/
def State.keptRunOut (s : State) : List Nat :=
  (s.roving.recs.filter (fun r => r.state == .runOut)).map (fun r => r.creel)

theorem rovingBegins_eq (s : State) : s.rovingBegins =
    if (s.askRunOut s.keptRunOut).anyDue then (s.askRunOut s.keptRunOut).startBatch
    else s.askRunOut s.keptRunOut := rfl

theorem rovingBegins_cases (s : State) : s.rovingBegins = (s.askRunOut s.keptRunOut).startBatch ∨
    s.rovingBegins = s.askRunOut s.keptRunOut := by
  rw [rovingBegins_eq]
  split
  · exact .inl rfl
  · exact .inr rfl

theorem rovingBegins_units (s : State) :
    s.rovingBegins.clock = s.clock ∧ s.rovingBegins.start = s.start ∧ s.rovingBegins.chain = s.chain ∧
      s.rovingBegins.table = s.table ∧ s.rovingBegins.pieces = s.pieces ∧ s.rovingBegins.drive = s.drive ∧
      s.rovingBegins.frame = s.frame := by
  rcases rovingBegins_cases s with begins | begins <;> rw [begins] <;> simp

theorem rovingBegins_onlyAsks (s : State) : s.OnlyAsks s.rovingBegins := by
  have asked := askRunOut_onlyAsks s s.keptRunOut
  rcases rovingBegins_cases s with begins | begins <;> rw [begins]
  · exact asked.trans (startBatch_onlyAsks _)
  · exact asked

theorem mem_keptRunOut {s : State} {r : SupplyRec} (member : r ∈ s.roving.recs) (state : r.state = .runOut) :
    r.creel ∈ s.keptRunOut :=
  List.mem_map_of_mem (List.mem_filter.mpr ⟨member, beq_iff_eq.mpr state⟩)

/-- With numbers that name one record each, a section that is not kept in RUN-OUT is not asked for. -/
theorem not_mem_keptRunOut {s : State} (nodup : (s.roving.recs.map (fun r => r.creel)).Nodup) {r : SupplyRec}
    (member : r ∈ s.roving.recs) (state : r.state ≠ .runOut) : r.creel ∉ s.keptRunOut := fun chosen => by
  have asked := contains_chosen (fun r => r.state == .runOut) nodup member
  rw [← State.keptRunOut, List.contains_iff_mem.mpr chosen] at asked
  exact state (beq_iff_eq.mp asked.symm)

/-- R133: a record after the asks, by whether its number is among those asked for. -/
theorem askRunOut_record {s : State} {k : Nat} {r : SupplyRec} (stands : s.roving.recs[k]? = some r)
    (creels : List Nat) : (s.askRunOut creels).roving.recs[k]? = some
      (if r.creel ∈ creels then { r with asks := 1, retryAt := some (s.clock / 1000 + 30000), eta := none }
       else r) := by
  rw [(askRunOut_roving s creels).1, State.runOutAskedRecs, List.getElem?_map, stands]
  rfl

/-- The asks move no section's state. -/
theorem askRunOut_anyDue (s : State) (creels : List Nat) : (s.askRunOut creels).anyDue = s.anyDue := by
  unfold State.anyDue
  rw [(askRunOut_roving s creels).1, State.runOutAskedRecs, List.any_map]
  refine congrArg s.roving.recs.any (funext fun r => ?_)
  simp only [Function.comp]
  split <;> rfl

/-- R123: the batch gathers no section that is RUN-OUT. -/
theorem batchRunsOut_runOut {s : State} {k : Nat} {r : SupplyRec} (stands : s.roving.recs[k]? = some r)
    (state : r.state = .runOut) : s.batchRunsOut.roving.recs[k]? = some r := by
  by_cases due : ∃ r ∈ s.roving.recs, r.state = .due
  · have stays : r ∉ s.gathered := fun member => by
      rcases gathered_state member with other | other <;> simp [state] at other
    rw [batchRunsOut_asks due _ rfl]
    simp only [List.getElem?_map, stands, Option.map_some, if_neg stays]
  · rw [batchRunsOut_idle fun r member state => due ⟨r, member, state⟩]
    exact stands

theorem startBatch_runOut {s : State} {k : Nat} {r : SupplyRec} (stands : s.roving.recs[k]? = some r)
    (state : r.state = .runOut) : s.startBatch.roving.recs[k]? = some r := by
  cases timer : s.roving.batchDue with
  | some m => rwa [startBatch_runs ⟨m, timer⟩]
  | none =>
    by_cases delay : s.cfg.batchDelay = 0
    · rw [startBatch_noDelay timer delay]
      exact batchRunsOut_runOut stands state
    · rw [startBatch_delay timer delay]
      exact stands

theorem rovingBegins_runOut {s : State} {k : Nat} {r : SupplyRec} (stands : s.roving.recs[k]? = some r)
    (state : r.state = .runOut) : s.rovingBegins.roving.recs[k]? = some
      { r with asks := 1, retryAt := some (s.clock / 1000 + 30000), eta := none } := by
  have asked := askRunOut_record stands s.keptRunOut
  rw [if_pos (mem_keptRunOut (List.mem_of_getElem? stands) state)] at asked
  rcases rovingBegins_cases s with begins | begins <;> rw [begins]
  · exact startBatch_runOut asked state
  · exact asked

/-- R139: every section kept in RUN-OUT stands in an ask, where the urgent queue has room for the asks. -/
theorem rovingBegins_lists {s : State} (room : s.line.urgent.length ≤ 8) (few : s.roving.recs.length ≤ 48) :
    ∃ asks, s.rovingBegins.line.urgent = s.line.urgent ++ asks ∧
      ∀ r ∈ s.roving.recs, r.state = .runOut → 1 ≤ r.creel → r.creel ≤ 48 →
        ∃ n ∈ asks, n.kind = some .rovingAsk ∧ n.lists r.creel := by
  obtain ⟨asks, queue, listed⟩ := askRunOut_lists (creels := s.keptRunOut) room few
  have among : ∀ r ∈ s.roving.recs, r.state = .runOut → 1 ≤ r.creel → r.creel ≤ 48 →
      ∃ n ∈ asks, n.kind = some .rovingAsk ∧ n.lists r.creel := fun r member state =>
    listed r member (mem_keptRunOut member state)
  rcases rovingBegins_cases s with begins | begins <;> rw [begins]
  · obtain ⟨more, queue', -⟩ := (startBatch_onlyAsks (s.askRunOut s.keptRunOut)).urgent
    refine ⟨asks ++ more, by rw [queue', queue, List.append_assoc], fun r member state low high => ?_⟩
    obtain ⟨n, isAsk, lists⟩ := among r member state low high
    exact ⟨n, List.mem_append_left _ isAsk, lists⟩
  · exact ⟨asks, queue, among⟩

section

variable {s : State} (delay : s.cfg.batchDelay ≠ 0)
include delay

theorem askRunOut_delay (creels : List Nat) : (s.askRunOut creels).cfg.batchDelay ≠ 0 := by
  simpa [State.cfg] using delay

/-- R122: with a batch delay above 0 the batch timer alone moves after the asks. -/
theorem rovingBegins_roving : s.rovingBegins.roving = { (s.askRunOut s.keptRunOut).roving with
    batchDue := if s.anyDue then some (s.roving.batchDue.getD (s.nowMs + 1000 * s.cfg.batchDelay))
                else s.roving.batchDue } := by
  have timer := (askRunOut_roving s s.keptRunOut).2
  rw [rovingBegins_eq, askRunOut_anyDue]
  split
  · rw [startBatch_roving (askRunOut_delay delay _), timer]
    simp [State.nowMs, State.cfg]
  · rw [← timer]

theorem rovingBegins_line : s.rovingBegins.line = (s.askRunOut s.keptRunOut).line := by
  rcases rovingBegins_cases s with begins | begins <;> rw [begins]
  exact startBatch_line (askRunOut_delay delay _)

/-- R139: without a section kept in RUN-OUT nothing is asked for. -/
theorem rovingBegins_noAsks (none : ∀ r ∈ s.roving.recs, r.state ≠ .runOut) : s.rovingBegins.line = s.line := by
  have kept : s.keptRunOut = [] := by simpa [State.keptRunOut] using none
  rw [rovingBegins_line delay, kept, askRunOut_nil]

theorem rovingBegins_others (nodup : (s.roving.recs.map (fun r => r.creel)).Nodup) {k : Nat} {r : SupplyRec}
    (stands : s.roving.recs[k]? = some r) (state : r.state ≠ .runOut) : s.rovingBegins.roving.recs[k]? = some r := by
  have asked := askRunOut_record stands s.keptRunOut
  rw [if_neg (not_mem_keptRunOut nodup (List.mem_of_getElem? stands) state)] at asked
  rw [rovingBegins_roving delay]
  exact asked

end

/-! ## HELLO, the scan timers and the first FORECAST (R5, R103, R197) -/

theorem startScan_units (s : State) (side : Side) :
    (s.startScan side).clock = s.clock ∧ (s.startScan side).start = s.start ∧ (s.startScan side).drive = s.drive ∧
      (s.startScan side).frame = s.frame ∧ (s.startScan side).table = s.table ∧
      (s.startScan side).pieces = s.pieces ∧ (s.startScan side).roving = s.roving ∧
      (s.startScan side).line = s.line := by
  unfold State.startScan
  split <;> simp

/-- R5: the scan timer of a side with a chain starts, and that of the other side stands. -/
theorem startScan_scanDue (s : State) (side other : Side) :
    ((s.startScan side).chain.side other).scanDue =
      if other = side ∧ 0 < s.modulesOf side then some (s.clock + 1000 * s.cfg.scanInterval)
      else (s.chain.side other).scanDue := by
  unfold State.startScan
  by_cases modules : 0 < s.modulesOf side
  · rw [if_pos modules, withChain_chain, side_withSide]
    by_cases same : other = side
    · rw [if_pos same, if_pos ⟨same, modules⟩]
    · rw [if_neg same, if_neg (same ·.1)]
  · rw [if_neg modules, if_neg (modules ·.2)]

section

variable {s : State} {n : Notice}

theorem hand_urgent_routine (urgent : n.urgent = true) : (s.hand n).line.routine = s.line.routine := by
  rw [State.hand, if_pos urgent]
  split <;> simp

theorem hand_routine_urgent (routine : n.urgent = false) : (s.hand n).line.urgent = s.line.urgent := by
  rw [State.hand, if_neg (Bool.eq_false_iff.mp routine)]
  split <;> simp

theorem hand_urgent_first (urgent : n.urgent = true) (empty : s.line.urgent = []) : (s.hand n).line.urgent = [n] := by
  rw [State.hand, if_pos urgent, empty]
  rfl

theorem hand_routine_first (routine : n.urgent = false) (empty : s.line.routine = []) :
    (s.hand n).line.routine = [n] := by
  rw [State.hand, if_neg (Bool.eq_false_iff.mp routine), empty]
  rfl

end

/-- The HELLO of a start (R197, R202). -/
def State.startHello (s : State) : Notice :=
  { dst := 255, src := s.start.strap, kind := some .hello, fresh := s.start.fresh, reference := 0,
    payload := [BitVec.ofNat 8 s.start.strap, 1#8, BitVec.ofNat 8 s.cfg.dofferGroup] }

theorem startHello_urgent (s : State) : s.startHello.urgent = true := rfl

theorem forecastNotice_urgent (s : State) : s.forecastNotice.urgent = false := rfl

/-- The state with the part active and HELLO handed. -/
def State.greeted (s : State) : State :=
  ({ s with start := { s.start with phase := .active, phaseStart := s.clock } } : State).hand s.startHello

/-- The state with the scan timers and the update tick started. -/
def State.scanning (s : State) : State :=
  ((s.greeted.startScan .A).startScan .B).withDrive { s.drive with tickDue := some (s.clock + 10000000) }

theorem greeted_units (s : State) :
    s.greeted.clock = s.clock ∧ s.greeted.start = { s.start with phase := .active, phaseStart := s.clock } ∧
      s.greeted.chain = s.chain ∧ s.greeted.table = s.table ∧ s.greeted.pieces = s.pieces ∧
      s.greeted.drive = s.drive ∧ s.greeted.frame = s.frame ∧ s.greeted.roving = s.roving := by
  simp [State.greeted]

theorem scanning_units (s : State) :
    s.scanning.clock = s.clock ∧ s.scanning.start = { s.start with phase := .active, phaseStart := s.clock } ∧
      s.scanning.table = s.table ∧ s.scanning.pieces = s.pieces ∧
      s.scanning.drive = { s.drive with tickDue := some (s.clock + 10000000) } ∧ s.scanning.frame = s.frame ∧
      s.scanning.roving = s.roving ∧ s.scanning.line = s.greeted.line := by
  simp [State.scanning, startScan_units, greeted_units]

/-- The state with the first FORECAST handed, as the roving unit finds it. -/
def State.announced (s : State) : State := s.scanning.buildForecast

/-- R197: becoming active is HELLO, the timers, the first FORECAST and the roving unit's asks, in this order. -/
theorem becomeActive_eq (s : State) : s.becomeActive = s.announced.rovingBegins := by
  have drive : ((s.greeted.startScan .A).startScan .B).drive = s.drive := by simp [startScan_units, greeted_units]
  have clock : ((s.greeted.startScan .A).startScan .B).clock = s.clock := by simp [startScan_units, greeted_units]
  have timers : ((s.greeted.startScan .A).startScan .B).withDrive
      { ((s.greeted.startScan .A).startScan .B).drive with
        tickDue := some (((s.greeted.startScan .A).startScan .B).clock + Config.tickTime) } = s.scanning := by
    rw [drive, clock]
    rfl
  rw [State.announced, ← timers]
  rfl

/-- R5: the scan timer of side A starts if the side has a chain. -/
theorem scanning_scanDue_sideA (s : State) : s.scanning.chain.sideA.scanDue =
    if s.cfg.sectionsA = 0 then s.chain.sideA.scanDue else some (s.clock + 1000 * s.cfg.scanInterval) := by
  obtain ⟨clock, start, chain, -⟩ := greeted_units s
  have cfg : s.greeted.cfg = s.cfg := by rw [State.cfg, start, State.cfg]
  have modules : s.greeted.modulesOf .A = 3 * s.cfg.sectionsA := by rw [State.modulesOf, cfg]
  have stands := startScan_scanDue (s.greeted.startScan .A) .B .A
  have starts := startScan_scanDue s.greeted .A .A
  rw [if_neg (fun both => nomatch both.1)] at stands
  rw [modules, clock, cfg, chain] at starts
  refine (stands.trans starts).trans ?_
  by_cases none : s.cfg.sectionsA = 0
  · rw [if_pos none, if_neg (fun both => by omega)]
    rfl
  · rw [if_neg none, if_pos ⟨rfl, by omega⟩]

/-- R5: so does that of side B. -/
theorem scanning_scanDue_sideB (s : State) : s.scanning.chain.sideB.scanDue =
    if s.cfg.sectionsB = 0 then s.chain.sideB.scanDue else some (s.clock + 1000 * s.cfg.scanInterval) := by
  obtain ⟨clock, start, chain, -⟩ := greeted_units s
  obtain ⟨clockA, startA, -⟩ := startScan_units s.greeted .A
  have cfg : (s.greeted.startScan .A).cfg = s.cfg := by rw [State.cfg, startA, start, State.cfg]
  have modules : (s.greeted.startScan .A).modulesOf .B = 3 * s.cfg.sectionsB := by rw [State.modulesOf, cfg]
  have stands := startScan_scanDue s.greeted .A .B
  rw [if_neg (fun both => nomatch both.1), chain] at stands
  refine (startScan_scanDue (s.greeted.startScan .A) .B .B).trans ?_
  rw [modules, clockA, clock, cfg, stands]
  by_cases none : s.cfg.sectionsB = 0
  · rw [if_pos none, if_neg (fun both => by omega)]
    rfl
  · rw [if_neg none, if_pos ⟨rfl, by omega⟩]

theorem scanning_urgent {s : State} (empty : s.line.urgent = []) : s.scanning.line.urgent = [s.startHello] := by
  obtain ⟨-, -, -, -, -, -, -, line⟩ := scanning_units s
  rw [line]
  exact hand_urgent_first (startHello_urgent s) empty

theorem scanning_routine {s : State} (empty : s.line.routine = []) : s.scanning.line.routine = [] := by
  obtain ⟨-, -, -, -, -, -, -, line⟩ := scanning_units s
  rw [line]
  exact (hand_urgent_routine (startHello_urgent s)).trans empty

theorem announced_units (s : State) :
    s.announced.clock = s.clock ∧ s.announced.start = { s.start with phase := .active, phaseStart := s.clock } ∧
      s.announced.cfg = s.cfg ∧ s.announced.table = s.table ∧ s.announced.pieces = s.pieces ∧
      s.announced.drive = { s.drive with tickDue := some (s.clock + 10000000) } ∧
      s.announced.frame = { s.frame with lastForecast := some s.drive.measured,
                                         forecastDue := some (s.clock + 60000000 * s.cfg.forecastInterval) } ∧
      s.announced.roving = s.roving ∧ s.announced.chain = s.scanning.chain := by
  obtain ⟨clock, start, table, pieces, drive, frame, roving, -⟩ := scanning_units s
  refine ⟨?_, ?_, ?_, ?_, ?_, ?_, ?_, ?_, ?_⟩ <;>
    simp [State.announced, State.buildForecast, State.cfg, clock, start, table, pieces, drive, frame, roving]

/-- R197: HELLO stands first in an urgent queue that held nothing. -/
theorem announced_urgent {s : State} (empty : s.line.urgent = []) : s.announced.line.urgent = [s.startHello] := by
  rw [State.announced, State.buildForecast, hand_routine_urgent (forecastNotice_urgent _), withFrame_line]
  exact scanning_urgent empty

theorem scanning_forecastNotice (s : State) : s.scanning.forecastNotice = s.forecastNotice := by
  obtain ⟨-, start, -, -, drive, frame, -⟩ := scanning_units s
  simp [State.forecastNotice, State.notice, State.cfg, start, drive, frame]

/-- R103: the first FORECAST stands in a routine queue that held nothing. -/
theorem announced_routine {s : State} (empty : s.line.routine = []) :
    s.announced.line.routine = [s.forecastNotice] := by
  rw [State.announced, State.buildForecast, ← scanning_forecastNotice s, hand_routine_first (forecastNotice_urgent _)]
  rw [withFrame_line]
  exact scanning_routine empty

/-! ## The command -/

theorem exec_becomingActive_ended {s : State} {t : Nat} (listening : s.start.phase = .listening)
    (ended : s.start.phaseStart + 2000000 ≤ max s.clock t) :
    exec (.becomingActive t) s = .next (s.later t).announced.rovingBegins := by
  have acts : exec (.becomingActive t) s = execBecomingActive t s := rfl
  have moment : s.reach t = s.later t := reach_later t (by simp [listening]) (by simp [listening])
  rw [acts, execBecomingActive, moment, ← becomeActive_eq]
  exact congrArg Host.Outcome.next (if_pos ((Bool.and_eq_true _ _).mpr
    ⟨beq_iff_eq.mpr listening, decide_eq_true ended⟩))

/-- Settles O11: `announced`, then the roving unit's asks by the lemmas on `rovingBegins`. -/
theorem becomingActiveBeginsScanning : Obligations.BecomingActiveBeginsScanning := by
  intro t s listening ended
  obtain ⟨clock, start, cfg, table, pieces, drive, frame, roving, chain⟩ := announced_units (s.later t)
  obtain ⟨clock', start', chain', table', pieces', drive', frame'⟩ := rovingBegins_units (s.later t).announced
  obtain ⟨_, routine, asks, queue, toRail⟩ := rovingBegins_onlyAsks (s.later t).announced
  have hello := fun empty : s.line.urgent = [] => announced_urgent (s := s.later t) empty
  have tail : s.line.urgent = [] → (s.later t).announced.rovingBegins.line.urgent = s.startHello :: asks :=
    fun empty => by rw [queue, hello empty]; rfl
  refine ⟨_, exec_becomingActive_ended listening ended, start'.trans start, clock'.trans clock, drive'.trans drive,
    frame'.trans frame, ?scanA, ?scanB, fun empty => ?first, fun empty => ?toRail, fun empty => ?forecast,
    fun k r stands state => ?runOut, fun empty few r member state low high => ?listed, fun empty delay none => ?none,
    fun delay nodup k r stands state => ?others, fun delay idle => ?timer, table'.trans table, pieces'.trans pieces,
    ?pins, ?pending⟩
  case scanA =>
    rw [chain', chain]
    exact scanning_scanDue_sideA (s.later t)
  case scanB =>
    rw [chain', chain]
    exact scanning_scanDue_sideB (s.later t)
  case first => rw [tail empty]; rfl
  case toRail =>
    rw [tail empty]
    exact cfg ▸ toRail
  case forecast => exact routine.trans (announced_routine (s := s.later t) empty)
  case runOut =>
    rw [rovingBegins_runOut (roving.symm ▸ stands) state, clock, later_clock]
  case listed =>
    obtain ⟨all, queue', lists⟩ := rovingBegins_lists (s := (s.later t).announced) (by simp [hello empty])
      (roving.symm ▸ few)
    rw [queue', hello empty]
    exact lists r (roving.symm ▸ member) state low high
  case none =>
    rw [rovingBegins_noAsks (cfg.symm ▸ delay) (roving.symm ▸ none), hello empty]
    rfl
  case others => exact rovingBegins_others (cfg.symm ▸ delay) (roving.symm ▸ nodup) (roving.symm ▸ stands) state
  case timer =>
    rw [rovingBegins_roving (cfg.symm ▸ delay), State.anyDue, State.nowMs, roving, clock, cfg, later_roving, idle]
    rfl
  case pins => simp [State.announced, State.scanning, State.greeted]
  case pending => simp [State.announced, State.scanning, State.greeted]

end Sys2Proof.Machine
end

section
/-! One step of the block: the command at the front of the queue, or idling (log 1). -/

namespace Sys2Proof.Machine

theorem step_front {s : State} {c : Instr} {rest : List Instr} (queue : s.pending = c :: rest) :
    step s = exec c (s.withPending rest) := by
  rw [step, queue]

theorem step_idle {s : State} (empty : s.pending = []) : step s = .next s := by
  rw [step, empty]

/-- Settles O1: `step_front` on a queue that holds a command, whose rest replaces the queue, and `step_idle`. -/
theorem stepRunsFrontCommand : Obligations.StepRunsFrontCommand := by
  constructor
  case left =>
    intro c rest s
    calc step { s with pending := c :: rest }
      _ = exec c ((s.withPending (c :: rest)).withPending rest) := step_front (withPending_pending s _)
      _ = exec c { s with pending := rest } := congrArg (exec c) (withPending_withPending s _ rest)
  case right => exact fun _ empty => step_idle empty

end Sys2Proof.Machine
end
